-- ==== Sys2Proof/Word.lean ====
section
/-! DEFINITION. The word types of the TM1637 protocol engine (R7: every value is unsigned, bit 0 least significant). -/

namespace Sys2Proof

/-- A command word or host register: 32 bits (R6 `CMD_WIDTH`, R61). -/
abbrev Word := BitVec 32

/-- A wire byte, a segment bitmap, a glyph index: 8 bits (R75). -/
abbrev Byte := BitVec 8

/-- A pin identifier of the GPIO collaborator: 8 bits (R6 `PIN_ID_WIDTH`). -/
abbrev PinId := BitVec 8

/-- The level of a line or latch: `true` is 1 (R69, R70). -/
abbrev Level := Bool

end Sys2Proof
end

