-- ==== Sys2Proof/Syntax.lean ====
section
/-! DEFINITION. The instructions: one constructor per row of spec/opcode_table.json. The first three are command words (R91), the
fourth the input of the ENCODE port (R100), the last four the bytes the engine puts on the wire (R97). -/

namespace Sys2Proof

inductive Instr where
  /-- INIT, format F-INIT (R92, R123) -/
  | init (clk dio : PinId)
  /-- SET_BRIGHTNESS, format F-LEVEL (R93, R124) -/
  | setBrightness (level : Byte)
  /-- WRITE_SEGMENT_RAW, format F-SEG (R94, R126) -/
  | writeSegmentRaw (pos : Byte) (bm : Byte)
  /-- ENCODE, the 9-bit input of the encoder ROM's port (R100, R184) -/
  | encode (dot : Bool) (idx : Byte)
  /-- WIRE_DATA_CMD, byte 0 of a segment write (R97, R160) -/
  | wireDataCmd
  /-- WIRE_ADDR_CMD, byte 1 of a segment write (R97, R161) -/
  | wireAddrCmd (pos : BitVec 3)
  /-- WIRE_DATA, byte 2 of a segment write (R97, R99, R161) -/
  | wireData (bm : Byte)
  /-- WIRE_DISP_CTRL, byte 3 of a segment write (R97, R162) -/
  | wireDispCtrl (bri : BitVec 3)
  deriving DecidableEq, Repr

/-- The role of a wire byte, fixed by its place in a segment write and not by its bits (R97, R163). -/
inductive ByteRole where
  | dataCmd
  | addrCmd
  | data
  | dispCtrl
  deriving DecidableEq, Repr

/-- Where an instruction's bits stand: a word written to CMD (R90), the ENCODE port's input (R100), a byte on the wire in one of its
four places (R97). -/
inductive Bits where
  | cmd (w : Word)
  | enc (x : BitVec 9)
  | wire (role : ByteRole) (b : Byte)
  deriving DecidableEq, Repr

end Sys2Proof
end

