-- ==== Sys2Proof/Decode.lean ====
section
/-! DEFINITION. The decoder, total on every word, port input and wire byte, and the encoder, both from the formats of
30_encoding.md (R90 to R100). -/

namespace Sys2Proof

/-- Why bits are no instruction. A command word refused so is an illegal word (R95). -/
inductive DecodeError where
  /-- OPC is 0x00 or 0x04 to 0xFF (R91, R95) -/
  | illegalOpcode
  /-- a reserved field of the format is not 0 (R95) -/
  | reservedField
  /-- the byte is not one the engine sends in this place (R97) -/
  | notOfThisPlace
  deriving DecidableEq, Repr

/-- `OPC`, bits [31:24] of a command word (R90). -/
def opcOf (w : Word) : Byte := w.extractLsb' 24 8

/-- Bits [23:16] of a command word, reserved in F-INIT and F-SEG (R92, R94). -/
def bits23to16 (w : Word) : Byte := w.extractLsb' 16 8

/-- Bits [23:8] of a command word, reserved in F-LEVEL (R93). -/
def bits23to8 (w : Word) : BitVec 16 := w.extractLsb' 8 16

/-- Bits [15:8] of a command word: CLK_PIN of F-INIT, POS of F-SEG (R92, R94). -/
def bits15to8 (w : Word) : Byte := w.extractLsb' 8 8

/-- Bits [7:0] of a command word: DIO_PIN, LEVEL or BITMAP (R92 to R94). -/
def bits7to0 (w : Word) : Byte := w.extractLsb' 0 8

/-- A word written to CMD (R90 to R95). -/
def decodeCmd (w : Word) : Except DecodeError Instr :=
  if opcOf w = 0x01 then
    if bits23to16 w = 0 then .ok (.init (bits15to8 w) (bits7to0 w)) else .error .reservedField
  else if opcOf w = 0x02 then
    if bits23to8 w = 0 then .ok (.setBrightness (bits7to0 w)) else .error .reservedField
  else if opcOf w = 0x03 then
    if bits23to16 w = 0 then .ok (.writeSegmentRaw (bits15to8 w) (bits7to0 w)) else .error .reservedField
  else .error .illegalOpcode

/-- The ENCODE port's input `{ENC_DOT, ENC_IDX}`; every value is legal (R100). -/
def decodeEnc (x : BitVec 9) : Instr :=
  .encode (x.getLsbD 8) (x.extractLsb' 0 8)

/-- A byte on the wire in its place (R97). -/
def decodeWire (role : ByteRole) (b : Byte) : Except DecodeError Instr :=
  match role with
  | .dataCmd => if b = 0x44 then .ok .wireDataCmd else .error .notOfThisPlace
  | .addrCmd => if b.extractLsb' 3 5 = 0b11000#5 then .ok (.wireAddrCmd (b.extractLsb' 0 3)) else .error .notOfThisPlace
  | .data => .ok (.wireData b)
  | .dispCtrl => if b.extractLsb' 3 5 = 0b10001#5 then .ok (.wireDispCtrl (b.extractLsb' 0 3)) else .error .notOfThisPlace

/-- The decoder. -/
def decode : Bits → Except DecodeError Instr
  | .cmd w => decodeCmd w
  | .enc x => .ok (decodeEnc x)
  | .wire role b => decodeWire role b

/-- The address byte `0xC0 | POSITION` (R97). -/
def addrByte (pos : BitVec 3) : Byte := 0xC0#8 ||| pos.setWidth 8

/-- The display-control byte `0x88 | BRIGHTNESS` (R97). -/
def ctrlByte (bri : BitVec 3) : Byte := 0x88#8 ||| bri.setWidth 8

/-- The encoder, from the same formats: `{0x01, 0x00, CLK, DIO}`, `{0x02, 0x0000, LEVEL}`, `{0x03, 0x00, POS, BITMAP}` (R101),
`{ENC_DOT, ENC_IDX}` (R100) and the four bytes of R97. -/
def encode : Instr → Bits
  | .init clk dio => .cmd (0x01#8 ++ 0x00#8 ++ clk ++ dio)
  | .setBrightness level => .cmd (0x02#8 ++ 0x0000#16 ++ level)
  | .writeSegmentRaw pos bm => .cmd (0x03#8 ++ 0x00#8 ++ pos ++ bm)
  | .encode dot idx => .enc (BitVec.ofBool dot ++ idx)
  | .wireDataCmd => .wire .dataCmd 0x44
  | .wireAddrCmd pos => .wire .addrCmd (addrByte pos)
  | .wireData bm => .wire .data bm
  | .wireDispCtrl bri => .wire .dispCtrl (ctrlByte bri)

/-- The command word of an instruction that has one (0 for the others, which are no command words). -/
def cmdWordOf (i : Instr) : Word :=
  match encode i with
  | .cmd w => w
  | .enc _ => 0
  | .wire _ _ => 0

/-- DESIGN CHOICE (log entry 11): the place a byte is taken for when only its bits are given, by the match and mask of the four
WIRE rows of spec/opcode_table.json, with WIRE_DATA (which matches every byte) last. -/
def roleOfBits (b : Byte) : ByteRole :=
  if b = 0x44 then .dataCmd
  else if b.extractLsb' 3 5 = 0b11000#5 then .addrCmd
  else if b.extractLsb' 3 5 = 0b10001#5 then .dispCtrl
  else .data

/-- The bits of an instruction numbered as spec/opcode_table.json numbers them: 32 bits are a command word, 9 bits (16 in whole bytes,
the upper 7 zero) the ENCODE port's input, 8 bits a wire byte. -/
def bitsOfTable (nbits w : Nat) : Option Bits :=
  if nbits = 32 ∧ w < 2 ^ 32 then some (.cmd (BitVec.ofNat 32 w))
  else if 9 ≤ nbits ∧ nbits ≤ 16 ∧ w < 2 ^ 9 then some (.enc (BitVec.ofNat 9 w))
  else if nbits = 8 ∧ w < 2 ^ 8 then some (.wire (roleOfBits (BitVec.ofNat 8 w)) (BitVec.ofNat 8 w))
  else none

/-- The instruction the decoder reads from an instruction's bits as the opcode table numbers them. -/
def decodeTableWord (nbits w : Nat) : Option Instr :=
  match bitsOfTable nbits w with
  | some b => (decode b).toOption
  | none => none

end Sys2Proof
end

