-- ==== Sys2Proof/Config.lean ====
section
/-! DEFINITION. What an implementation fixes (R6) and the free values: the answers of the outside world, which no rule of the spec
determines (93_implementation_defined, treatment `any value`). The values this hardware takes for R6's parameters stand in
Machine/Params.lean. -/

namespace Sys2Proof

/-- `DIR[p]`, the direction the GPIO collaborator holds for a pin (R33). -/
inductive Dir where
  | unconf
  | out
  | input
  deriving DecidableEq, Repr, Inhabited

/-- `LATCH[p]`, the output latch the GPIO collaborator holds for a pin (R33). -/
inductive Latch where
  | low
  | high
  | undef
  deriving DecidableEq, Repr, Inhabited

/-- The response to a `CFG_OUT` or `CFG_IN` (R67, R68). -/
inductive CfgResp where
  | ok
  | fail
  deriving DecidableEq, Repr, Inhabited

/-- `ROM_GK` (R6): the encoder ROM's entries that no source gives, indices 1 to 7, 9 to 14 and the minus glyph (R181). -/
structure RomGk where
  g1 : Byte
  g2 : Byte
  g3 : Byte
  g4 : Byte
  g5 : Byte
  g6 : Byte
  g7 : Byte
  g9 : Byte
  g10 : Byte
  g11 : Byte
  g12 : Byte
  g13 : Byte
  g14 : Byte
  minus : Byte
  deriving DecidableEq, Repr

/-- The parameters of R6 that a rule reads and for which this hardware has a value. -/
structure Params where
  /-- `N_DIGITS` -/
  nDigits : Nat
  /-- `DEFAULT_BRIGHTNESS` -/
  defaultBrightness : BitVec 3
  /-- `MINUS_IDX` -/
  minusIdx : Byte
  /-- `ROM_GK` -/
  romGk : RomGk
  deriving DecidableEq, Repr

/-- The entries of `ROM_GK` as a list. -/
def RomGk.entries (g : RomGk) : List Byte :=
  [g.g1, g.g2, g.g3, g.g4, g.g5, g.g6, g.g7, g.g9, g.g10, g.g11, g.g12, g.g13, g.g14, g.minus]

/-- The legal values of R6's table: `N_DIGITS` is 4, 5 or 6; `MINUS_IDX` is 16 to 255; every entry of `ROM_GK` has bit 7 = 0. -/
abbrev Params.Legal (P : Params) : Prop :=
  (P.nDigits = 4 ∨ P.nDigits = 5 ∨ P.nDigits = 6) ∧ 16 ≤ P.minusIdx.toNat ∧ ∀ b ∈ P.romGk.entries, b.getLsbD 7 = false

/-- FREE VALUE (R67, R68; log entry 2): the n-th drawn response to a `CFG_OUT` or `CFG_IN`. -/
opaque Config.cfgResponse : Nat → CfgResp

/-- FREE VALUE (R34, R70; log entry 3): the n-th drawn level that the outside world puts on a line the engine does not drive. -/
opaque Config.outsideLevel : Nat → Level

/-- FREE VALUE (R33; log entry 1): the direction a pin has before anything has configured it. -/
opaque Config.powerOnDir : PinId → Dir

/-- FREE VALUE (R33; log entry 1): the latch a pin has before anything has set it. -/
opaque Config.powerOnLatch : PinId → Latch

/-- OPEN (R6; log entry 16): `T_DELAY_US` less one, so that every natural number from 1 on is possible for `T_DELAY_US`. -/
opaque Config.tDelayPred : Nat

/-- `T_DELAY_US`, the argument of every settle delay, a natural number of at least 1 (R6, R71). -/
def Config.tDelayUs : Nat := Config.tDelayPred + 1

/-- OPEN (R6, R237): `T_DELAY_MIN_US`, the shortest settle delay the device needs. No rule reads it. -/
opaque Config.tDelayMinUs : Nat

/-- OPEN (R6, R83): `HOST_BASE`, where the platform places the four host registers. No rule reads it. -/
opaque Config.hostBase : Nat

end Sys2Proof
end

