-- ==== Sys2Proof/Machine/Params.lean ====
section
/-! DEFINITION. The values this hardware takes for the parameters of R6. -/

namespace Sys2Proof.Machine

/-- PRESUMED (R181, D25; log entry 15): the usual 7-segment values, which the spec supplies from general knowledge. -/
def romGk : RomGk where
  g1 := 0x06
  g2 := 0x5B
  g3 := 0x4F
  g4 := 0x66
  g5 := 0x6D
  g6 := 0x7D
  g7 := 0x07
  g9 := 0x6F
  g10 := 0x77
  g11 := 0x7C
  g12 := 0x39
  g13 := 0x5E
  g14 := 0x79
  minus := 0x40

/-- This hardware's parameters (R6: `N_DIGITS` = 4 by D32, `DEFAULT_BRIGHTNESS` = 7 by D10, `MINUS_IDX` = 16 by D24; log entry 15). -/
def hw : Params where
  nDigits := 4
  defaultBrightness := 7
  minusIdx := 16
  romGk := romGk

end Sys2Proof.Machine
end

