-- ==== Sys2Proof/Machine/State.lean ====
section
/-! DEFINITION. The state of the machine as plain data: the engine's registers (R21), the collaborator's pins (R33), the ENCODE port's
inputs (R100), the action in flight and the trace (R66), and what the outside world will do. -/

namespace Sys2Proof.Machine

/-- `FSM` (R23). -/
inductive Fsm where
  | uninit
  | idle
  | busy
  | fault
  deriving DecidableEq, Repr

/-- `OP` (R21): the kind of the command that last entered BUSY. -/
inductive Op where
  | init
  | write
  deriving DecidableEq, Repr

/-- `FAULT_CAUSE` (R200). Codes 7 to 15 are never written, so they have no name here; `causeCode` gives the 4-bit code. -/
inductive FaultCause where
  | noFault
  | illegalCmd
  | notInit
  | posRange
  | pinConflict
  | gpioInitFail
  | gpioRuntimeFail
  deriving DecidableEq, Repr

/-- One primitive action of the engine (R66 to R71). -/
inductive Action where
  /-- `CFG_OUT(p)` (R67) -/
  | cfgOut (p : PinId)
  /-- `CFG_IN(p)` (R68) -/
  | cfgIn (p : PinId)
  /-- `SET(p, v)` (R69) -/
  | set (p : PinId) (v : Level)
  /-- `GET(p)` (R70) -/
  | get (p : PinId)
  /-- `DELAY(n)`, n in microseconds (R71) -/
  | delay (n : Nat)
  deriving DecidableEq, Repr

/-- A collaborator's response (R67 to R71). -/
inductive Response where
  | cfg (r : CfgResp)
  | done
  | level (b : Level)
  deriving DecidableEq, Repr

/-- One operation of the host: a register write or read (R61), driving the ENCODE port (R100), or the pseudo-instruction `wait`, which
reads STATUS until STATE is not BUSY (R102; log entry 19). -/
inductive HostOp where
  | write (reg : BitVec 2) (w : Word)
  | read (reg : BitVec 2)
  | encode (dot : Bool) (idx : Byte)
  | poll
  deriving DecidableEq, Repr

/-- A host operation and how many moves of the engine and its collaborators come before it (log entry 5). -/
structure HostReq where
  wait : Nat
  op : HostOp
  deriving DecidableEq, Repr

/-- What an agent other than the engine does to a pin of the GPIO port (R33, R236; log entry 20). -/
inductive PinWrite where
  | dir (d : Dir)
  | latch (l : Latch)
  deriving DecidableEq, Repr

/-- What reaches the machine from outside: the reset event (R230), a response to an action that a reset abandoned (R230), a
collaborator that will never answer the outstanding action (R72; log entry 6), another agent on a pin (R236). -/
inductive Event where
  | reset
  | lateResponse (r : Response)
  | noAnswer
  | pinWrite (p : PinId) (w : PinWrite)
  deriving DecidableEq, Repr

/-- An event and how many moves of the engine and its collaborators come before it (log entry 5). -/
structure EventReq where
  wait : Nat
  ev : Event
  deriving DecidableEq, Repr

structure State where
  /-- `FSM` (R21, R23) -/
  fsm : Fsm
  /-- `OP` (R21) -/
  op : Op
  /-- `SEQ_IDX` (R21, R24) -/
  seqIdx : BitVec 8
  /-- `CLK_PIN` (R21) -/
  clkPin : PinId
  /-- `DIO_PIN` (R21) -/
  dioPin : PinId
  /-- `BRIGHTNESS` (R21, R25) -/
  brightness : BitVec 3
  /-- `POSITION` (R21, R26) -/
  position : BitVec 3
  /-- `BITMAP` (R21) -/
  bitmap : Byte
  /-- `ACK_LOG` (R21, R157) -/
  ackLog : BitVec 4
  /-- `FAULT_CAUSE` (R21, R200) -/
  faultCause : FaultCause
  /-- `FAULT_INFO` (R21, R203) -/
  faultInfo : Word
  /-- the action issued and not yet answered; at most one (R66, R72) -/
  outstanding : Option Action
  /-- the collaborator that has the outstanding action never answers it: a hang (R72; log entry 6) -/
  hung : Bool
  /-- `DIR[p]` of every pin that has been configured since power-on, by pin identifier (R33; log entries 1, 4) -/
  dirs : List (Nat × Dir)
  /-- `LATCH[p]` of every pin that has been set since power-on, by pin identifier (R33; log entries 1, 4) -/
  latches : List (Nat × Latch)
  /-- `ENC_IDX` (R100) -/
  encIdx : Byte
  /-- `ENC_DOT` (R100) -/
  encDot : Bool
  /-- the trace: every action emitted, in order (R66) -/
  trace : List Action
  /-- the host's operations not yet made, the next first; a CMD write that is held stays first (R120, R122) -/
  host : List HostReq
  /-- the model's own: the value the host's last register read returned (R61; log entry 23) -/
  rdData : Word
  /-- the host has written a legal INIT in this run (R129; log entry 30) -/
  initWritten : Bool
  /-- the model's own: what reaches the machine from outside, the next first (log entry 5) -/
  events : List EventReq
  /-- the model's own: the responses the GPIO port is known to give to CFG actions, the next first (log entry 2) -/
  cfgScript : List CfgResp
  /-- the model's own: the levels the outside world is known to put on an undriven line, the next first (log entry 3) -/
  levelScript : List Level
  /-- the model's own: how many responses to CFG actions have been drawn as free values (log entry 2) -/
  cfgDraws : Nat
  /-- the model's own: how many levels of an undriven line have been drawn as free values (log entry 3) -/
  levelDraws : Nat
  deriving DecidableEq, Repr

/-- Why the machine stops. Every fault the spec describes is a NEXT state with FSM = FAULT (R202), not one of these. -/
inductive Fault where
  /-- Raised by a sequencer move in BUSY when SEQ_IDX is past the end of the running sequence, so that there is no action to emit. R24
  says it never is; no state that meets `State.Inv` raises it. SAFE: the model stops where the spec gives no step (log entry 13). -/
  | noAction
  deriving DecidableEq, Repr

/-- Why an instruction is given no meaning. -/
inductive Refusal where
  /-- Raised by `exec`'s arm of an instruction the model does not cover. SAFE. No arm raises it. -/
  | notModelled (mnemonic : String)
  /-- Raised by the meaning of a wire byte when the engine is not at that byte's place in a segment write: the micro-operations "are
  reached only through the commands" (41_bus_sequencer). `step` never raises it. SAFE (log entry 10). -/
  | byteOutOfPlace
  deriving DecidableEq, Repr

/-- The machine right after reset (R32), with the pins unspecified (R33: nothing listed, so every pin holds its free power-on value), no
action in flight, nothing emitted and nothing asked of it yet (log entry 14). -/
def State.reset : State where
  fsm := .uninit
  op := .init
  seqIdx := 0
  clkPin := 0
  dioPin := 0
  brightness := hw.defaultBrightness
  position := 0
  bitmap := 0
  ackLog := 0
  faultCause := .noFault
  faultInfo := 0
  outstanding := none
  hung := false
  dirs := []
  latches := []
  encIdx := 0
  encDot := false
  trace := []
  host := []
  rdData := 0
  initWritten := false
  events := []
  cfgScript := []
  levelScript := []
  cfgDraws := 0
  levelDraws := 0

/-- The outcome of a step of this machine. -/
abbrev Outcome := Host.Outcome State Fault Refusal

end Sys2Proof.Machine
end

