-- ==== Sys2Proof/Machine/Flags.lean ====
section
/-! DEFINITION. The engine has no condition codes; its flags are the STATUS fields (R31). The codes of the encoded registers and the
words the host reads (R27 to R30). -/

namespace Sys2Proof.Machine

/-- `FSM` as STATUS.STATE encodes it (R23). -/
def stateCode : Fsm → BitVec 2
  | .uninit => 0
  | .idle => 1
  | .busy => 2
  | .fault => 3

/-- `OP` as one bit (R21). -/
def opBit : Op → BitVec 1
  | .init => 0
  | .write => 1

/-- The opcode of the running command (R203). -/
def opCode : Op → Byte
  | .init => 0x01
  | .write => 0x03

/-- The code of a fault cause (R200). -/
def causeCode : FaultCause → BitVec 4
  | .noFault => 0
  | .illegalCmd => 1
  | .notInit => 2
  | .posRange => 3
  | .pinConflict => 4
  | .gpioInitFail => 5
  | .gpioRuntimeFail => 6

/-- STATUS (R28), from bit 31 down: reserved, SEQ_IDX, FAULT_CAUSE, ACK_LOG, reserved, BRIGHTNESS, reserved, OP, STATE. -/
def statusWord (s : State) : Word :=
  0#8 ++ s.seqIdx ++ causeCode s.faultCause ++ s.ackLog ++ 0#1 ++ s.brightness ++ 0#1 ++ opBit s.op ++ stateCode s.fsm

/-- CONFIG (R30), from bit 31 down: reserved, N_DIGITS, CLK_PIN, DIO_PIN. -/
def configWord (s : State) : Word :=
  0#13 ++ BitVec.ofNat 3 hw.nDigits ++ s.clkPin ++ s.dioPin

/-- ACK_LOG with bit k written (R157). -/
def setAckBit (log : BitVec 4) (k : Nat) (v : Bool) : BitVec 4 :=
  if v then log ||| (1#4 <<< k) else log &&& ~~~(1#4 <<< k)

/-- `AckByte(SEQ_IDX)` (R157): 53, 118, 175 and 240 are the GET of bytes 0 to 3; no other index has one. -/
def ackByte (i : BitVec 8) : Option Nat :=
  if i = 53 then some 0
  else if i = 118 then some 1
  else if i = 175 then some 2
  else if i = 240 then some 3
  else none

/-- ACK_LOG after the sample at SEQ_IDX = i (R121, R157); unchanged at an index that has no GET (log entry 24). -/
def ackAfter (i : BitVec 8) (v : Bool) (log : BitVec 4) : BitVec 4 :=
  match ackByte i with
  | some k => setAckBit log k v
  | none => log

end Sys2Proof.Machine
end

