-- ==== Sys2Proof/Machine/Pins.lean ====
section
/-! DEFINITION. The pin space of the GPIO collaborator (R33, R60): one list of directions and one of latches, each keyed by pin
identifier in one canonical form, and the level of a line (R34). A pin that is not listed holds its free power-on value. -/

namespace Sys2Proof.Machine

/-- The canonical form of a list keyed by pin identifier: identifiers strictly rising, each of 8 bits. -/
abbrev PinMap.wf {α : Type} (m : List (Nat × α)) : Prop :=
  m.Pairwise (fun a b => a.1 < b.1) ∧ ∀ e ∈ m, e.1 < 256

/-- The entry listed under a key. -/
def pinLookup {α : Type} (k : Nat) : List (Nat × α) → Option α
  | [] => none
  | (k', v) :: rest => if k = k' then some v else pinLookup k rest

/-- The list with the entry under a key replaced or put in its place. -/
def pinInsert {α : Type} (k : Nat) (v : α) : List (Nat × α) → List (Nat × α)
  | [] => [(k, v)]
  | (k', v') :: rest =>
    if k < k' then (k, v) :: (k', v') :: rest
    else if k = k' then (k, v) :: rest
    else (k', v') :: pinInsert k v rest

/-- `DIR[p]` (R33). -/
def dirOf (p : PinId) (s : State) : Dir := (pinLookup p.toNat s.dirs).getD (Config.powerOnDir p)

/-- `LATCH[p]` (R33). -/
def latchOf (p : PinId) (s : State) : Latch := (pinLookup p.toNat s.latches).getD (Config.powerOnLatch p)

/-- `DIR[p] <- d` (R33). -/
def setDir (p : PinId) (d : Dir) (s : State) : State := { s with dirs := pinInsert p.toNat d s.dirs }

/-- `LATCH[p] <- l`, whatever `DIR[p]` is (R33). -/
def setLatch (p : PinId) (l : Latch) (s : State) : State := { s with latches := pinInsert p.toNat l s.latches }

/-- The latch value that `SET(p, v)` writes (R69). -/
def latchOfLevel (v : Level) : Latch := if v then .high else .low

/-- The level a line has when a pin of this direction and latch drives it; `none` when the outside world sets it (R34). -/
def drivenBy (d : Dir) (l : Latch) : Option Level :=
  match d, l with
  | .out, .low => some false
  | .out, .high => some true
  | .out, .undef => none
  | .input, _ => none
  | .unconf, _ => none

/-- The level of a line whose pin has this direction and latch, at a moment at which the outside world would put level `out` on it: the
pin's own level where the pin drives it, and `out` where it does not (R34). -/
def lineLevel (d : Dir) (l : Latch) (out : Level) : Level := (drivenBy d l).getD out

/-- `line(p)` as far as the pin itself sets it (R34). -/
def drivenLevel (p : PinId) (s : State) : Option Level := drivenBy (dirOf p s) (latchOf p s)

/-- `line(p)`, with the level that the outside world would put on it at this moment (R34). -/
def lineOf (p : PinId) (out : Level) (s : State) : Level := lineLevel (dirOf p s) (latchOf p s) out

end Sys2Proof.Machine
end

