-- ==== Sys2Proof/Machine/Operands.lean ====
section
/-! DEFINITION. Operand assembly (R96): no field is sign-extended, scaled or shifted. The fields themselves (`opcOf`, `bits23to16`,
`bits23to8`, `bits15to8`, `bits7to0`) stand in Decode.lean with the formats they belong to. -/

namespace Sys2Proof.Machine

/-- `Clamp7(v) = min(v, 7)` (R125). -/
def clamp7 (v : Byte) : BitVec 3 := BitVec.ofNat 3 (min v.toNat 7)

/-- What POSITION keeps of POS: bits [2:0] (R96, R126). -/
def positionOf (pos : Byte) : BitVec 3 := pos.extractLsb' 0 3

/-- The byte that stands in each place of a segment write (R97): 0x44, `0xC0 | POSITION`, BITMAP, `0x88 | BRIGHTNESS`. -/
def wireByte (role : ByteRole) (pos : BitVec 3) (bm : Byte) (bri : BitVec 3) : Byte :=
  match role with
  | .dataCmd => 0x44
  | .addrCmd => addrByte pos
  | .data => bm
  | .dispCtrl => ctrlByte bri

end Sys2Proof.Machine
end

