-- ==== Sys2Proof/Machine/Sequences.lean ====
section
/-! DEFINITION. Every action sequence the engine emits (41_bus_sequencer). `c` is CLK_PIN, `d` is DIO_PIN. -/

namespace Sys2Proof.Machine

/-- `W`, the settle delay `DELAY(T_DELAY_US)` (R71, R150). -/
def settle : Action := .delay Config.tDelayUs

/-- `INIT_SEQ(C, D)`: `OC OD C1 W D1 W` (R151). -/
def initSeq (c d : PinId) : List Action :=
  [.cfgOut c, .cfgOut d, .set c true, settle, .set d true, settle]

/-- `START`: `D0 W` (R152). -/
def startSeq (d : PinId) : List Action :=
  [.set d false, settle]

/-- `STOP`: `D0 W C1 W D1 W` (R153). -/
def stopSeq (c d : PinId) : List Action :=
  [.set d false, settle, .set c true, settle, .set d true, settle]

/-- `SEND_BIT(b)`: `C0 W D<b> W C1 W` (R154). -/
def sendBit (c d : PinId) (b : Level) : List Action :=
  [.set c false, settle, .set d b, settle, .set c true, settle]

/-- `ACK_SEQ`: `ID C0 W RD C1 W C0 W OD` (R155). -/
def ackSeq (c d : PinId) : List Action :=
  [.cfgIn d, .set c false, settle, .get d, .set c true, settle, .set c false, settle, .cfgOut d]

/-- `SEND_BYTE(x)`: the eight bits, least significant first, then the acknowledge window (R159, R65). -/
def sendByte (c d : PinId) (x : Byte) : List Action :=
  sendBit c d (x.getLsbD 0) ++ (sendBit c d (x.getLsbD 1) ++ (sendBit c d (x.getLsbD 2) ++ (sendBit c d (x.getLsbD 3) ++
    (sendBit c d (x.getLsbD 4) ++ (sendBit c d (x.getLsbD 5) ++ (sendBit c d (x.getLsbD 6) ++ (sendBit c d (x.getLsbD 7) ++
      ackSeq c d)))))))

/-- The bits that the shift-register form sends: `n` bits from SHIFT, `SHIFT[0]` first (R36, R159). -/
def shiftBits (c d : PinId) : Nat → Byte → List Action
  | 0, _ => []
  | n + 1, sh => sendBit c d (sh.getLsbD 0) ++ shiftBits c d n (sh >>> 1)

/-- `SEND_BYTE(x)` in the hardware form of R159's pseudocode, with SHIFT loaded with x and BITCNT from 0 to 7 (R36). -/
def sendByteShift (c d : PinId) (x : Byte) : List Action :=
  shiftBits c d 8 x ++ ackSeq c d

/-- `T1 = START ++ SEND_BYTE(0x44) ++ STOP` (R160). -/
def t1 (c d : PinId) : List Action :=
  startSeq d ++ (sendByte c d 0x44 ++ stopSeq c d)

/-- `T2(pos, bm) = START ++ SEND_BYTE(0xC0 | pos) ++ SEND_BYTE(bm) ++ STOP` (R161). -/
def t2 (c d : PinId) (pos : BitVec 3) (bm : Byte) : List Action :=
  startSeq d ++ (sendByte c d (addrByte pos) ++ (sendByte c d bm ++ stopSeq c d))

/-- `T3(bri) = START ++ SEND_BYTE(0x88 | bri) ++ STOP` (R162). -/
def t3 (c d : PinId) (bri : BitVec 3) : List Action :=
  startSeq d ++ (sendByte c d (ctrlByte bri) ++ stopSeq c d)

/-- `WRITE_SEQ(C, D, pos, bm, bri) = T1 ++ T2(pos, bm) ++ T3(bri)` (R163). -/
def writeSeq (c d : PinId) (pos : BitVec 3) (bm : Byte) (bri : BitVec 3) : List Action :=
  t1 c d ++ (t2 c d pos bm ++ t3 c d bri)

/-- The index of a byte's first action in WRITE_SEQ (R163). -/
def byteStart : ByteRole → Nat
  | .dataCmd => 2
  | .addrCmd => 67
  | .data => 124
  | .dispCtrl => 189

/-- The byte whose part of WRITE_SEQ holds index i, if there is one (R163). -/
def roleAt (i : Nat) : Option ByteRole :=
  if 2 ≤ i ∧ i ≤ 58 then some .dataCmd
  else if 67 ≤ i ∧ i ≤ 123 then some .addrCmd
  else if 124 ≤ i ∧ i ≤ 180 then some .data
  else if 189 ≤ i ∧ i ≤ 245 then some .dispCtrl
  else none

end Sys2Proof.Machine
end

