-- ==== Sys2Proof/Machine/Ops.lean ====
section
/-! DEFINITION. The named operations every instruction is made of: fault entry (R202), reset (R230), the answers of the collaborators
(R66 to R71), the two halves of the sequencer step (R121), acceptance of a command word (R120, R201) and the host registers (R61). -/

namespace Sys2Proof.Machine

/-! ## Fault entry and reset -/

/-- `raise Fault(cause, info)` (R202): the ONE fault entry. There is no vector and no saved pc; nothing else changes. -/
def raiseFault (c : FaultCause) (info : Word) (s : State) : State :=
  { s with faultCause := c, faultInfo := info, fsm := .fault }

/-- The reset event (R230), the only way out of FAULT (R207): every engine register takes its reset value (R32) and an outstanding
action is abandoned, so a hang is over too. The pins, the port and what the outside world will do are not touched (R232). -/
def engineReset (s : State) : State :=
  { s with
    fsm := .uninit
    op := .init
    seqIdx := 0
    clkPin := 0
    dioPin := 0
    brightness := hw.defaultBrightness
    position := 0
    bitmap := 0
    ackLog := 0
    faultCause := .noFault
    faultInfo := 0
    outstanding := none
    hung := false }

/-! ## The collaborators -/

/-- The response the GPIO port gives to the next CFG action: a free draw (R67, R68; log entry 2). -/
def cfgAnswer (s : State) : CfgResp := s.cfgScript.head?.getD (Config.cfgResponse s.cfgDraws)

/-- The state after that draw. -/
def consumeCfg (s : State) : State :=
  { s with cfgScript := s.cfgScript.tail, cfgDraws := if s.cfgScript = [] then s.cfgDraws + 1 else s.cfgDraws }

/-- The level the outside world puts on a line that nothing drives: a free draw each time it is read (R34, R70; log entry 3). -/
def outsideBit (s : State) : Level := s.levelScript.head?.getD (Config.outsideLevel s.levelDraws)

/-- The state after that draw. -/
def consumeLevel (s : State) : State :=
  { s with levelScript := s.levelScript.tail, levelDraws := if s.levelScript = [] then s.levelDraws + 1 else s.levelDraws }

/-- A collaborator's response to an action (R67 to R71). `GET` returns `line(p)` (R34; log entry 18). -/
def respond (a : Action) (s : State) : Response :=
  match a with
  | .cfgOut _ => .cfg (cfgAnswer s)
  | .cfgIn _ => .cfg (cfgAnswer s)
  | .set _ _ => .done
  | .get p => .level (lineOf p (outsideBit s) s)
  | .delay _ => .done

/-- The state after the GPIO port has answered a request to give pin p the direction d: it does so on `ok` and changes nothing on `fail`
(R33, R67, R68). -/
def configured (p : PinId) (d : Dir) (s : State) : State :=
  match cfgAnswer s with
  | .ok => setDir p d (consumeCfg s)
  | .fail => consumeCfg s

/-- The state after a collaborator has applied an action, which it does before it responds (R77). -/
def applied (a : Action) (s : State) : State :=
  match a with
  | .cfgOut p => configured p .out s
  | .cfgIn p => configured p .input s
  | .set p v => setLatch p (latchOfLevel v) s
  | .get p => if (drivenLevel p s).isSome then s else consumeLevel s
  | .delay _ => s

/-! ## The sequencer step (R121), in two moves: the engine issues an action, a collaborator answers it -/

/-- `CUR_SEQ`, a function of the registers (R24). -/
def curSeq (s : State) : List Action :=
  match s.op with
  | .init => initSeq s.clkPin s.dioPin
  | .write => writeSeq s.clkPin s.dioPin s.position s.bitmap s.brightness

/-- The engine issues action a and waits (R66): the action joins the trace and is outstanding. -/
def issue (a : Action) (s : State) : State :=
  { s with outstanding := some a, trace := s.trace ++ [a] }

/-- The collaborator that has the outstanding action will never answer it (R72). -/
def hang (s : State) : State := { s with hung := true }

/-- The outstanding action has its response. -/
def received (s : State) : State := { s with outstanding := none }

/-- `ACK_LOG[AckByte(SEQ_IDX)] <- v` (R121, R157). -/
def logAck (v : Bool) (s : State) : State := { s with ackLog := ackAfter s.seqIdx v s.ackLog }

/-- Completion of the sequence (R122). -/
def complete (s : State) : State := { s with seqIdx := 0, fsm := .idle }

/-- The next action of the sequence (R121). -/
def advance (s : State) : State := { s with seqIdx := s.seqIdx + 1 }

/-- The end of a sequencer step: completion after the last action, else the next index (R121). -/
def finish (s : State) : State :=
  if s.seqIdx.toNat + 1 = (curSeq s).length then complete s else advance s

/-- The cause of a fault in the sequencer step: GPIO_INIT_FAIL in INIT, GPIO_RUNTIME_FAIL in a segment write (R121, R204, R205). -/
def runCause : Op → FaultCause
  | .init => .gpioInitFail
  | .write => .gpioRuntimeFail

/-- `{OPC, 0x0000, SEQ_IDX}` (R203). -/
def runInfo (s : State) : Word := opCode s.op ++ 0x0000#16 ++ s.seqIdx

/-- What the engine does with a response (R121). -/
def onResponse (r : Response) (s : State) : State :=
  match r with
  | .cfg .fail => raiseFault (runCause s.op) (runInfo s) s
  | .cfg .ok => finish s
  | .done => finish s
  | .level b => finish (logAck (!b) s)

/-- A collaborator answers the outstanding action a and the engine handles the response. -/
def answer (a : Action) (s : State) : State :=
  onResponse (respond a s) (received (applied a s))

/-- One move of a running sequence: the outstanding action is answered, or, when there is none, `next?` is issued. -/
def moveWith (next? : Option Action) (s : State) : Outcome :=
  match s.outstanding with
  | some a => .next (answer a s)
  | none =>
    match next? with
    | some a => .next (issue a s)
    | none => .fault .noAction

/-- One move of the running sequence at SEQ_IDX (R121). -/
def sequencerMove (s : State) : Outcome := moveWith (curSeq s)[s.seqIdx.toNat]? s

/-- One move of `SEND_BYTE(x)` (R159) in the place that role has in a segment write; outside that place the byte is not sent (R97,
R163; log entry 10). -/
def byteMove (role : ByteRole) (x : Byte) (s : State) : Outcome :=
  if s.fsm = .busy ∧ s.op = .write ∧ roleAt s.seqIdx.toNat = some role then
    moveWith (sendByte s.clkPin s.dioPin x)[s.seqIdx.toNat - byteStart role]? s
  else .refused .byteOutOfPlace

/-! ## Acceptance of a command word -/

/-- `Check(w)` (R201), the tests in the spec's order. -/
def check (P : Params) (fsm : Fsm) (w : Word) : FaultCause :=
  if opcOf w ≠ 0x01 ∧ opcOf w ≠ 0x02 ∧ opcOf w ≠ 0x03 then .illegalCmd
  else if opcOf w = 0x01 ∧ bits23to16 w ≠ 0 then .illegalCmd
  else if opcOf w = 0x02 ∧ bits23to8 w ≠ 0 then .illegalCmd
  else if opcOf w = 0x03 ∧ bits23to16 w ≠ 0 then .illegalCmd
  else if opcOf w ≠ 0x01 ∧ fsm = .uninit then .notInit
  else if opcOf w = 0x01 ∧ bits15to8 w = bits7to0 w then .pinConflict
  else if opcOf w = 0x03 ∧ P.nDigits ≤ (bits15to8 w).toNat then .posRange
  else .noFault

/-- The word is a legal INIT: one that UNINIT accepts, where `Check` passes no other word (R201; R129). -/
def legalInit (w : Word) : Bool := decide (check hw .uninit w = .noFault)

/-- A checked word in UNINIT or IDLE: the fault it raises, or the command performed (R120). -/
def checked (w : Word) (perform : State → State) (s : State) : State :=
  if check hw s.fsm w = .noFault then perform s else raiseFault (check hw s.fsm w) w s

/-- `MemWrite(0, 32, w)` by FSM (R120): in BUSY the write does not happen yet, in FAULT it is discarded (R209), in UNINIT and IDLE it is
checked and performed. -/
def accept (w : Word) (perform : State → State) (s : State) : Outcome :=
  match s.fsm with
  | .busy => .next s
  | .fault => .next s
  | .uninit => .next (checked w perform s)
  | .idle => .next (checked w perform s)

/-! ## Host registers -/

/-- `MemRead(reg, 32)` (R61, R62): CMD reads 0. -/
def readReg (reg : BitVec 2) (s : State) : Word :=
  if reg = 0 then 0
  else if reg = 1 then statusWord s
  else if reg = 2 then s.faultInfo
  else configWord s

/-- A read takes the value to the host and has no other effect (R62). -/
def hostRead (reg : BitVec 2) (s : State) : State := { s with rdData := readReg reg s }

/-- The ENCODE port's inputs are driven (R100, R101). -/
def driveEncoder (dot : Bool) (idx : Byte) (s : State) : State := { s with encDot := dot, encIdx := idx }

/-! ## The outside world's queues -/

/-- One move passes before the host's next operation. -/
def tickHost : List HostReq → List HostReq
  | [] => []
  | r :: rest => { r with wait := r.wait - 1 } :: rest

/-- One move passes before the next event. -/
def tickEvents : List EventReq → List EventReq
  | [] => []
  | e :: rest => { e with wait := e.wait - 1 } :: rest

/-- One move of the engine and its collaborators passes. -/
def elapse (s : State) : State := { s with host := tickHost s.host, events := tickEvents s.events }

/-- The host's first operation is taken. -/
def popHost (s : State) : State := { s with host := s.host.tail }

/-- The first event is taken. -/
def popEvent (s : State) : State := { s with events := s.events.tail }

/-- The operation writes a legal INIT to CMD (R129). -/
def isInitWrite : HostOp → Bool
  | .write reg w => decide (reg = 0) && legalInit w
  | .read _ => false
  | .encode _ _ => false
  | .poll => false

/-- A run remembers whether the host has written a legal INIT (R129), whatever becomes of the write and over a reset (log entry 30). -/
def noteOp (op : HostOp) (s : State) : State := { s with initWritten := s.initWritten || isInitWrite op }

/-- The host puts an operation first (the loop of `wait`, R102). -/
def pushHost (r : HostReq) (s : State) : State := { s with host := r :: s.host }

end Sys2Proof.Machine
end

