-- ==== Sys2Proof/Machine/Commands.lean ====
section
/-! DEFINITION. The meanings of the host commands (40_host_commands). A command sets its registers on acceptance; the sequence it starts
runs by later moves (R121). -/

namespace Sys2Proof.Machine

/-- INIT on acceptance (R123, R130). -/
def performInit (clk dio : PinId) (s : State) : State :=
  { s with
    clkPin := clk
    dioPin := dio
    brightness := hw.defaultBrightness
    ackLog := 0
    op := .init
    seqIdx := 0
    fsm := .busy }

/-- SET_BRIGHTNESS on acceptance (R124). -/
def performSetBrightness (level : Byte) (s : State) : State :=
  { s with brightness := clamp7 level }

/-- WRITE_SEGMENT_RAW on acceptance (R126). -/
def performWriteSegmentRaw (pos bm : Byte) (s : State) : State :=
  { s with
    position := positionOf pos
    bitmap := bm
    ackLog := 0
    op := .write
    seqIdx := 0
    fsm := .busy }

/-- INIT: its word written to CMD (R120, R123). -/
def execInit (clk dio : PinId) (s : State) : Outcome :=
  accept (cmdWordOf (.init clk dio)) (performInit clk dio) s

/-- SET_BRIGHTNESS: its word written to CMD (R120, R124). -/
def execSetBrightness (level : Byte) (s : State) : Outcome :=
  accept (cmdWordOf (.setBrightness level)) (performSetBrightness level) s

/-- WRITE_SEGMENT_RAW: its word written to CMD (R120, R126). -/
def execWriteSegmentRaw (pos bm : Byte) (s : State) : Outcome :=
  accept (cmdWordOf (.writeSegmentRaw pos bm)) (performWriteSegmentRaw pos bm) s

/-- An illegal word written to CMD (R95): `Check` finds ILLEGAL_CMD, so nothing is performed. -/
def writeIllegal (w : Word) (s : State) : Outcome := accept w id s

end Sys2Proof.Machine
end

