-- ==== Sys2Proof/Machine/Encoder.lean ====
section
/-! DEFINITION. The 7-segment encoder ROM and its port (42_encoder_rom). -/

namespace Sys2Proof.Machine

/-- `ROM[idx]` (R181). Entries 0, 8, 15 and the blank ones are the source's; the others are `ROM_GK` and `MINUS_IDX` (R6). -/
def rom (P : Params) (idx : Byte) : Byte :=
  match idx.toNat with
  | 0 => 0x3F
  | 1 => P.romGk.g1
  | 2 => P.romGk.g2
  | 3 => P.romGk.g3
  | 4 => P.romGk.g4
  | 5 => P.romGk.g5
  | 6 => P.romGk.g6
  | 7 => P.romGk.g7
  | 8 => 0x7F
  | 9 => P.romGk.g9
  | 10 => P.romGk.g10
  | 11 => P.romGk.g11
  | 12 => P.romGk.g12
  | 13 => P.romGk.g13
  | 14 => P.romGk.g14
  | 15 => 0x71
  | _ => if idx = P.minusIdx then P.romGk.minus else 0x00

/-- `DIGIT_TO_BITMAP(idx) = ROM[idx]` (R182). -/
def digitToBitmap (P : Params) (idx : Byte) : Byte := rom P idx

/-- `APPLY_DOT(bm, flag) = bm | (flag << 7)` (R183). -/
def applyDot (bm : Byte) (flag : Bool) : Byte :=
  bm ||| ((BitVec.ofBool flag).setWidth 8 <<< 7)

/-- `APPLY_DOT(DIGIT_TO_BITMAP(ENC_IDX), ENC_DOT)` (R184). -/
def encodeGlyph (P : Params) (dot : Bool) (idx : Byte) : Byte := applyDot (digitToBitmap P idx) dot

/-- `ENC_OUT`, combinational in the port's inputs and in nothing else (R184). -/
def encOut (s : State) : Byte := encodeGlyph hw s.encDot s.encIdx

/-- ENCODE: the host drives `{ENC_DOT, ENC_IDX}`; ENC_OUT follows (R101, R184). It answers in every FSM state alike. -/
def execEncode (dot : Bool) (idx : Byte) (s : State) : Outcome := .next (driveEncoder dot idx s)

end Sys2Proof.Machine
end

