-- ==== Sys2Proof/Machine/WireBytes.lean ====
section
/-! DEFINITION. The meanings of the four wire bytes (R97, R160 to R162): one move of `SEND_BYTE` (R159) in the byte's place of a segment
write. A byte takes 57 actions, each issued and then answered, so its instruction is run by 114 moves (log entry 10). -/

namespace Sys2Proof.Machine

/-- WIRE_DATA_CMD: the byte 0x44, byte 0 (R160). -/
def execWireDataCmd (s : State) : Outcome := byteMove .dataCmd 0x44 s

/-- WIRE_ADDR_CMD: the byte `0xC0 | POSITION`, byte 1 (R161). -/
def execWireAddrCmd (pos : BitVec 3) (s : State) : Outcome := byteMove .addrCmd (addrByte pos) s

/-- WIRE_DATA: the bitmap byte, byte 2, sent unchanged (R99, R161). -/
def execWireData (bm : Byte) (s : State) : Outcome := byteMove .data bm s

/-- WIRE_DISP_CTRL: the byte `0x88 | BRIGHTNESS`, byte 3 (R162). -/
def execWireDispCtrl (bri : BitVec 3) (s : State) : Outcome := byteMove .dispCtrl (ctrlByte bri) s

end Sys2Proof.Machine
end

