-- ==== Sys2Proof/Machine/Dispatch.lean ====
section
/-! DEFINITION. One arm per instruction. -/

namespace Sys2Proof.Machine

def exec (i : Instr) (s : State) : Host.Outcome State Fault Refusal :=
  match i with
  | .init clk dio => Sys2Proof.Machine.execInit clk dio s
  | .setBrightness level => Sys2Proof.Machine.execSetBrightness level s
  | .writeSegmentRaw pos bm => Sys2Proof.Machine.execWriteSegmentRaw pos bm s
  | .encode dot idx => Sys2Proof.Machine.execEncode dot idx s
  | .wireDataCmd => Sys2Proof.Machine.execWireDataCmd s
  | .wireAddrCmd pos => Sys2Proof.Machine.execWireAddrCmd pos s
  | .wireData bm => Sys2Proof.Machine.execWireData bm s
  | .wireDispCtrl bri => Sys2Proof.Machine.execWireDispCtrl bri s

end Sys2Proof.Machine
end

