-- ==== Sys2Proof/Machine/Turn.lean ====
section
/-! DEFINITION. Whose turn it is, and what each agent does with it (R20): an event from outside, the host, or the engine and its
collaborators. Everything `step` does around `exec` stands here. -/

namespace Sys2Proof.Machine

/-- The event that happens now, if one does. -/
def dueEvent (s : State) : Option Event :=
  match s.events with
  | ⟨0, ev⟩ :: _ => some ev
  | _ => none

/-- The operation is a command write. -/
def isCmdWrite : HostOp → Bool
  | .write reg _ => decide (reg = 0)
  | .read _ => false
  | .encode _ _ => false
  | .poll => false

/-- The operation the host makes now, if it makes one. A CMD write that meets BUSY is held: it does not happen yet and the host has no
step (R120). -/
def dueHost (s : State) : Option HostOp :=
  match s.host with
  | ⟨0, op⟩ :: _ => if isCmdWrite op = true ∧ s.fsm = .busy then none else some op
  | _ => none

/-- A CMD write that would happen in the same step as a reset has no effect on the engine (R211; log entry 8). -/
def dropCmdWrite (s : State) : State :=
  match dueHost s with
  | some op => if isCmdWrite op = true then noteOp op (popHost s) else s
  | none => s

/-- Another agent's access to a pin (R33, R236; log entry 20). -/
def otherAgent (p : PinId) (w : PinWrite) (s : State) : State :=
  match w with
  | .dir d => setDir p d s
  | .latch l => setLatch p l s

/-- An event's effect. A reset wins over everything else in its step (R211); a response to an abandoned action is ignored (R230); an
answer that never comes is one to the outstanding action, if there is one (R72). -/
def onEvent (ev : Event) (s : State) : State :=
  match ev with
  | .reset => engineReset (dropCmdWrite s)
  | .lateResponse _ => s
  | .noAnswer => if s.outstanding.isSome then hang s else s
  | .pinWrite p w => otherAgent p w s

/-- A word written to CMD: the instruction it decodes to, or an illegal word (R95, R120). -/
def writeCmd (w : Word) (s : State) : Outcome :=
  match decode (.cmd w) with
  | .ok i => exec i s
  | .error _ => writeIllegal w s

/-- `MemWrite(reg, 32, w)`: register 0 is CMD; a write to 1, 2 or 3 has no effect (R61, R62). -/
def writeReg (reg : BitVec 2) (w : Word) (s : State) : Outcome :=
  if reg = 0 then writeCmd w s else .next s

/-- One pass of the loop `wait` (R102): STATUS is read, and read again after a move as long as STATE is BUSY (log entry 19). -/
def pollOnce (s : State) : State :=
  if (readReg 1 s).extractLsb' 0 2 = 2#2 then pushHost ⟨1, .poll⟩ (hostRead 1 s) else hostRead 1 s

/-- What a host operation does; s is the state with the operation taken from the queue. -/
def hostMove (op : HostOp) (s : State) : Outcome :=
  match op with
  | .write reg w => writeReg reg w s
  | .read reg => .next (hostRead reg s)
  | .encode dot idx => exec (decodeEnc (BitVec.ofBool dot ++ idx)) s
  | .poll => .next (pollOnce s)

/-- The wire byte the engine is sending, read by the decoder from the byte and its place (R97, R163). -/
def byteInstr (s : State) : Option Instr :=
  match s.op, roleAt s.seqIdx.toNat with
  | .write, some role => (decode (.wire role (wireByte role s.position s.bitmap s.brightness))).toOption
  | .write, none => none
  | .init, _ => none

/-- One move of the engine and its collaborators: in BUSY a move of the running sequence, which inside a wire byte is that byte's
instruction; else nothing, and nothing in a hang, where the engine waits in BUSY for an answer that never comes (R72). -/
def engineMove (s : State) : Outcome :=
  if s.fsm = .busy ∧ s.hung = false then
    match byteInstr s with
    | some i => exec i s
    | none => sequencerMove s
  else .next s

/-- One step of the machine: an event that is due comes first (R211), then the host, then the engine and its collaborators. -/
def turn (s : State) : Outcome :=
  match dueEvent s with
  | some ev => .next (onEvent ev (popEvent s))
  | none =>
    match dueHost s with
    | some op => hostMove op (noteOp op (popHost s))
    | none => engineMove (elapse s)

/-! ## Placing an instruction where the next step fetches it (log entry 12) -/

/-- The next event waits one move more, so that it is not due. -/
def postponeEvents : List EventReq → List EventReq
  | [] => []
  | e :: rest => { e with wait := e.wait + 1 } :: rest

/-- The host's next operation waits one move more, so that it is not due. -/
def postponeHost : List HostReq → List HostReq
  | [] => []
  | r :: rest => { r with wait := r.wait + 1 } :: rest

/-- The host makes this operation next. -/
def placeHostOp (op : HostOp) (s : State) : State :=
  { s with host := ⟨0, op⟩ :: s.host, events := postponeEvents s.events }

/-- A CMD write is placed, and a running sequence that would hold it is taken as completed. -/
def placeCmd (w : Word) (s : State) : State :=
  match s.fsm with
  | .busy => placeHostOp (.write 0 w) { received (complete s) with hung := false }
  | .uninit => placeHostOp (.write 0 w) s
  | .idle => placeHostOp (.write 0 w) s
  | .fault => placeHostOp (.write 0 w) s

/-- The operand a wire byte's place reads is set to what the instruction names (R24). -/
def placeOperand (i : Instr) (s : State) : State :=
  match i with
  | .wireAddrCmd pos => { s with position := pos }
  | .wireData bm => { s with bitmap := bm }
  | .wireDispCtrl bri => { s with brightness := bri }
  | .wireDataCmd => s
  | .init _ _ => s
  | .setBrightness _ => s
  | .writeSegmentRaw _ _ => s
  | .encode _ _ => s

/-- The engine stands at the first action of a byte of a segment write. -/
def placeByte (role : ByteRole) (b : Byte) (s : State) : State :=
  let t : State :=
    { s with
      fsm := .busy
      op := .write
      seqIdx := BitVec.ofNat 8 (byteStart role)
      outstanding := none
      hung := false
      host := postponeHost s.host
      events := postponeEvents s.events }
  match decodeWire role b with
  | .ok i => placeOperand i t
  | .error _ => t

/-- The bits of an instruction placed where the next step fetches them. -/
def placeBits (b : Bits) (s : State) : State :=
  match b with
  | .cmd w => placeCmd w s
  | .enc x => placeHostOp (.encode (x.getLsbD 8) (x.extractLsb' 0 8)) s
  | .wire role b => placeByte role b s

end Sys2Proof.Machine
end

