-- ==== Sys2Proof/Machine/Step.lean ====
section
/-! DEFINITION. One step of the machine, and the placing of an instruction where the next step fetches it. -/

namespace Sys2Proof.Machine

/-- One step: one agent's turn (R20). -/
def step (s : State) : Host.Outcome State Fault Refusal := turn s

/-- s with the instruction whose table bits are w placed so that the very next step runs it (log entry 12). -/
def State.withFetchWord (s : State) (nbits w : Nat) : State :=
  match bitsOfTable nbits w with
  | some b => placeBits b s
  | none => s

end Sys2Proof.Machine
end

