-- ==== Sys2Proof/Machine/Asm.lean ====
section
/-! DEFINITION. The spec's assembly syntax for a host program and its pseudo-instructions, as the host operations they stand for
(R101, R102). An operand that does not fit its field is an assembly error, not a truncation. -/

namespace Sys2Proof.Machine

/-- One line of a host program (R101, R102). -/
inductive Asm where
  | init (clk dio : Nat)
  | setbri (level : Nat)
  | wrseg (pos bm : Nat)
  | enc (idx dot : Nat)
  | rdstat
  | rdfault
  | rdcfg
  | word (v : Nat)
  | wrglyph (pos idx dot : Nat)
  | blank (pos : Nat)
  | wait
  deriving DecidableEq, Repr

/-- A host operation that comes at once. -/
def now (op : HostOp) : HostReq := ⟨0, op⟩

/-- The CMD write of an instruction's word. -/
def cmdWrite (i : Instr) : HostReq := now (.write 0 (cmdWordOf i))

/-- `wrseg POS, BITMAP` for operands that fit (R101). -/
def wrsegOps (pos : Nat) (bm : Byte) : List HostReq := [cmdWrite (.writeSegmentRaw (BitVec.ofNat 8 pos) bm)]

/-- The host operations of a line; `none` is an assembly error (R101). `wrglyph` writes the bitmap that `enc` gives (R102). -/
def assemble : Asm → Option (List HostReq)
  | .init clk dio =>
    if clk < 256 ∧ dio < 256 then some [cmdWrite (.init (BitVec.ofNat 8 clk) (BitVec.ofNat 8 dio))] else none
  | .setbri level => if level < 256 then some [cmdWrite (.setBrightness (BitVec.ofNat 8 level))] else none
  | .wrseg pos bm => if pos < 256 ∧ bm < 256 then some (wrsegOps pos (BitVec.ofNat 8 bm)) else none
  | .enc idx dot => if idx < 256 ∧ dot < 2 then some [now (.encode (decide (dot = 1)) (BitVec.ofNat 8 idx))] else none
  | .rdstat => some [now (.read 1)]
  | .rdfault => some [now (.read 2)]
  | .rdcfg => some [now (.read 3)]
  | .word v => if v < 2 ^ 32 then some [now (.write 0 (BitVec.ofNat 32 v))] else none
  | .wrglyph pos idx dot =>
    if pos < 256 ∧ idx < 256 ∧ dot < 2 then
      some (now (.encode (decide (dot = 1)) (BitVec.ofNat 8 idx)) ::
        wrsegOps pos (encodeGlyph hw (decide (dot = 1)) (BitVec.ofNat 8 idx)))
    else none
  | .blank pos => if pos < 256 then some (wrsegOps pos 0x00) else none
  | .wait => some [now .poll]

end Sys2Proof.Machine
end

