-- ==== Sys2Proof/Safety.lean ====
section
/-! DEFINITION. The terms the claims use: the invariant of the machine, the wires of the bus and their conditions (R10, R34, R37), the
end of a run (R129) and the time a trace takes at least (R243). -/

namespace Sys2Proof

open Machine

/-- What every reachable state satisfies and every step keeps. -/
structure Machine.State.Inv (s : State) : Prop where
  /-- the pin space has its canonical form -/
  dirs_wf : PinMap.wf s.dirs
  latches_wf : PinMap.wf s.latches
  /-- R26: POSITION is a digit of the display -/
  position_lt : s.position.toNat < hw.nDigits
  /-- R24: SEQ_IDX is 0 when no sequence has run into it -/
  idx_rest : s.fsm = .uninit ∨ s.fsm = .idle → s.seqIdx = 0
  /-- R24: SEQ_IDX is a position of the running sequence -/
  idx_busy : s.fsm = .busy → s.seqIdx.toNat < (curSeq s).length
  /-- R24, R66: an outstanding action is the running sequence's at SEQ_IDX -/
  outstanding_is : ∀ a, s.outstanding = some a → s.fsm = .busy ∧ (curSeq s)[s.seqIdx.toNat]? = some a
  /-- R72: only an outstanding action can be left unanswered -/
  hung_is : s.hung = true → s.outstanding ≠ none
  /-- R202, R230: there is a cause exactly in FAULT -/
  cause_iff : s.faultCause = .noFault ↔ s.fsm ≠ .fault
  /-- R29: FAULT_INFO reads 0 when FAULT_CAUSE is 0 -/
  info_zero : s.faultCause = .noFault → s.faultInfo = 0
  /-- R201: the two lines have two pins once an INIT is accepted -/
  pins_differ : s.fsm = .idle ∨ s.fsm = .busy → s.clkPin ≠ s.dioPin
  /-- R23, R129: the host has written the legal INIT without which there is no IDLE and no BUSY -/
  init_written : s.fsm = .idle ∨ s.fsm = .busy → s.initWritten = true

/-! ## The wires -/

/-- Direction and latch of the two pins of the bus (R33). -/
structure Wires where
  clkDir : Dir
  clkLatch : Latch
  dioDir : Dir
  dioLatch : Latch
  deriving DecidableEq, Repr

/-- Both lines outputs at level 1 (R37). -/
def idleHigh : Wires := ⟨.out, .high, .out, .high⟩

/-- The engine's two pins as the GPIO port holds them. -/
def wiresOf (s : State) : Wires :=
  ⟨dirOf s.clkPin s, latchOf s.clkPin s, dirOf s.dioPin s, latchOf s.dioPin s⟩

/-- What an action answered `ok` or `done` does to the two pins c and d (R33, R67 to R71). -/
def wireStep (c d : PinId) (w : Wires) (a : Action) : Wires :=
  match a with
  | .cfgOut p => if p = c then { w with clkDir := .out } else if p = d then { w with dioDir := .out } else w
  | .cfgIn p => if p = c then { w with clkDir := .input } else if p = d then { w with dioDir := .input } else w
  | .set p v =>
    if p = c then { w with clkLatch := latchOfLevel v } else if p = d then { w with dioLatch := latchOfLevel v } else w
  | .get _ => w
  | .delay _ => w

/-- The two pins after a list of actions. -/
def wiresAfter (c d : PinId) (w : Wires) (l : List Action) : Wires := l.foldl (wireStep c d) w

/-- R37 made inductive: in IDLE both lines are outputs at level 1; in BUSY the two pins are what the actions completed so far make of
them, which in a segment write begins from that level. -/
def Machine.State.WireInv (s : State) : Prop :=
  (s.fsm = .idle → wiresOf s = idleHigh) ∧
  (s.fsm = .busy → ∃ w, (s.op = .write → w = idleHigh) ∧
    wiresOf s = wiresAfter s.clkPin s.dioPin w ((curSeq s).take s.seqIdx.toNat))

/-- No event of this step touches a pin from outside the engine (R236). -/
def NoOtherAgent (s : State) : Prop := ∀ p w, dueEvent s ≠ some (.pinWrite p w)

/-- The levels that the outside world would put on the two lines at one moment, where the engine does not drive them (R34). -/
structure Outside where
  clk : Level
  dio : Level
  deriving DecidableEq, Repr

/-- `line(CLK_PIN)` at a moment (R34): undriven, as in an INIT before its first SET, it is the outside world's. -/
def clkLevel (o : Outside) (w : Wires) : Level := lineLevel w.clkDir w.clkLatch o.clk

/-- `line(DIO_PIN)` at a moment (R34). -/
def dioLevel (o : Outside) (w : Wires) : Level := lineLevel w.dioDir w.dioLatch o.dio

/-- A condition on the wire (R10, R34). -/
inductive WireEdge where
  | start
  | stop
  deriving DecidableEq, Repr

/-- A change of DIO while CLK is 1, between a moment with wires w and outside levels o and a later one with w' and o': from 1 to 0 a
start condition, from 0 to 1 a stop condition (R34). The two moments have outside levels of their own, since an undriven line is a free
draw each time it is read. -/
def edgeBetween (o o' : Outside) (w w' : Wires) : Option WireEdge :=
  if clkLevel o w = true ∧ clkLevel o' w' = true then
    if dioLevel o w = true ∧ dioLevel o' w' = false then some .start
    else if dioLevel o w = false ∧ dioLevel o' w' = true then some .stop
    else none
  else none

/-- The conditions a list of actions makes on the wire, each with the index of its action, from index n on. `ext n` is what the outside
world does just before action n, and `ext (n + 1)` just after it; nothing relates one moment's levels to another's. -/
def edgesFrom (ext : Nat → Outside) (c d : PinId) : Nat → Wires → List Action → List (Nat × WireEdge)
  | _, _, [] => []
  | n, w, a :: l =>
    match edgeBetween (ext n) (ext (n + 1)) w (wireStep c d w a) with
    | some e => (n, e) :: edgesFrom ext c d (n + 1) (wireStep c d w a) l
    | none => edgesFrom ext c d (n + 1) (wireStep c d w a) l

/-- The outside world holding both lines at one level for good (V-H). -/
def held (b : Level) : Nat → Outside := fun _ => ⟨b, b⟩

/-! ## Traces and runs -/

/-- The action is a DELAY. -/
def isDelay : Action → Bool
  | .delay _ => true
  | .cfgOut _ => false
  | .cfgIn _ => false
  | .set _ _ => false
  | .get _ => false

/-- The action is a SET. -/
def isSet : Action → Bool
  | .set _ _ => true
  | .cfgOut _ => false
  | .cfgIn _ => false
  | .get _ => false
  | .delay _ => false

/-- The action is a CFG_OUT. -/
def isCfgOut : Action → Bool
  | .cfgOut _ => true
  | .cfgIn _ => false
  | .set _ _ => false
  | .get _ => false
  | .delay _ => false

/-- The action is a CFG_IN. -/
def isCfgIn : Action → Bool
  | .cfgIn _ => true
  | .cfgOut _ => false
  | .set _ _ => false
  | .get _ => false
  | .delay _ => false

/-- The action is a GET. -/
def isGet : Action → Bool
  | .get _ => true
  | .cfgOut _ => false
  | .cfgIn _ => false
  | .set _ _ => false
  | .delay _ => false

/-- The microseconds that the delays of a list of actions take at least (R71, R243). -/
def delayTotal : List Action → Nat
  | [] => 0
  | .delay n :: l => n + delayTotal l
  | .cfgOut _ :: l => delayTotal l
  | .cfgIn _ :: l => delayTotal l
  | .set _ _ :: l => delayTotal l
  | .get _ :: l => delayTotal l

/-- A run of a host program is over (R129): the host has no further operation and FSM is IDLE or FAULT, or it is UNINIT and the host never
wrote a legal INIT. A run that a reset took back to UNINIT after a legal INIT is not over (log entry 30 says what counts as writing one). -/
def runOver (s : State) : Prop :=
  s.host = [] ∧ (s.fsm = .idle ∨ s.fsm = .fault ∨ s.fsm = .uninit ∧ s.initWritten = false)

/-- Nothing but the engine and its collaborators moves, and they answer: the host asks nothing more, nothing comes from outside, and there
is no hang (R72). -/
def Quiet (s : State) : Prop := s.host = [] ∧ s.events = [] ∧ s.hung = false

/-- Neither an event nor a host operation has its turn now and there is no hang, so the engine and its collaborators move. -/
def NothingDue (s : State) : Prop := dueEvent s = none ∧ dueHost s = none ∧ s.hung = false

/-- Every pin has the direction and the latch it had (R33). -/
def SamePins (s t : State) : Prop := ∀ p, dirOf p t = dirOf p s ∧ latchOf p t = latchOf p s

/-- The queues and scripts of the outside world, what the host read and whether it has written a legal INIT are as they were. -/
def SameOutside (s t : State) : Prop :=
  t.host = s.host ∧ t.events = s.events ∧ t.rdData = s.rdData ∧ t.initWritten = s.initWritten ∧ t.cfgScript = s.cfgScript ∧
    t.levelScript = s.levelScript ∧
    t.cfgDraws = s.cfgDraws ∧ t.levelDraws = s.levelDraws

/-- The same state but for ACK_LOG, the levels to come from the outside world and what the host last read (which may be an ACK_LOG): what
the levels that GETs returned can differ in (R128, R158). -/
def SameButSamples (s t : State) : Prop :=
  t = { s with ackLog := t.ackLog, levelScript := t.levelScript, levelDraws := t.levelDraws, rdData := t.rdData }

/-- The same state but for those and the pins (R128, R236). -/
def SameButPins (s t : State) : Prop :=
  t = { s with
    dirs := t.dirs, latches := t.latches, ackLog := t.ackLog, levelScript := t.levelScript, levelDraws := t.levelDraws,
    rdData := t.rdData }

/-- The ENCODE port's inputs are as they were. -/
def SameEncoder (s t : State) : Prop := t.encIdx = s.encIdx ∧ t.encDot = s.encDot

/-- Every engine register (R21) and the outstanding action are as they were. -/
def SameEngine (s t : State) : Prop :=
  t.fsm = s.fsm ∧ t.op = s.op ∧ t.seqIdx = s.seqIdx ∧ t.clkPin = s.clkPin ∧ t.dioPin = s.dioPin ∧
    t.brightness = s.brightness ∧ t.position = s.position ∧ t.bitmap = s.bitmap ∧ t.ackLog = s.ackLog ∧
    t.faultCause = s.faultCause ∧ t.faultInfo = s.faultInfo ∧ t.outstanding = s.outstanding

/-- The engine is in a segment write at offset k of the byte whose part begins at index `start` (R163). -/
def AtByte (start k : Nat) (s : State) : Prop :=
  s.fsm = .busy ∧ s.op = .write ∧ k < 57 ∧ s.seqIdx.toNat = start + k

/-- Instruction i issues the k-th action of `SEND_BYTE(x)` when nothing is outstanding (R66, R159). -/
def ByteIssues (i : Instr) (start : Nat) (x : Byte) : Prop :=
  ∀ s k, AtByte start k s → s.outstanding = none →
    ∃ a, (sendByte s.clkPin s.dioPin x)[k]? = some a ∧
      exec i s = .next { s with outstanding := some a, trace := s.trace ++ [a] }

/-- What instruction i does when the outstanding action is answered, one clause for each kind of action (R67 to R71, R121, R205). -/
def ByteAnswers (i : Instr) (start : Nat) : Prop :=
  ∀ s k, AtByte start k s →
    (∀ n, s.outstanding = some (.delay n) →
      exec i s = .next { s with outstanding := none, seqIdx := s.seqIdx + 1 }) ∧
    (∀ p v, s.outstanding = some (.set p v) →
      exec i s = .next { s with
        latches := pinInsert p.toNat (latchOfLevel v) s.latches, outstanding := none, seqIdx := s.seqIdx + 1 }) ∧
    (∀ p b, s.outstanding = some (.get p) → drivenLevel p s = some b →
      exec i s = .next { s with ackLog := ackAfter s.seqIdx (!b) s.ackLog, outstanding := none, seqIdx := s.seqIdx + 1 }) ∧
    (∀ p, s.outstanding = some (.get p) → drivenLevel p s = none →
      exec i s = .next { consumeLevel s with
        ackLog := ackAfter s.seqIdx (!outsideBit s) s.ackLog, outstanding := none, seqIdx := s.seqIdx + 1 }) ∧
    (∀ p, s.outstanding = some (.cfgOut p) → cfgAnswer s = .ok →
      exec i s = .next { consumeCfg s with
        dirs := pinInsert p.toNat .out s.dirs, outstanding := none, seqIdx := s.seqIdx + 1 }) ∧
    (∀ p, s.outstanding = some (.cfgIn p) → cfgAnswer s = .ok →
      exec i s = .next { consumeCfg s with
        dirs := pinInsert p.toNat .input s.dirs, outstanding := none, seqIdx := s.seqIdx + 1 }) ∧
    (∀ p, s.outstanding = some (.cfgOut p) ∨ s.outstanding = some (.cfgIn p) → cfgAnswer s = .fail →
      exec i s = .next { consumeCfg s with
        fsm := .fault, faultCause := .gpioRuntimeFail, faultInfo := 0x03#8 ++ 0x0000#16 ++ s.seqIdx, outstanding := none })

/-- Instruction i executed n times in a row, stopping at the first fault or refusal. -/
def repeatExec : Nat → Instr → State → Outcome
  | 0, _, s => .next s
  | n + 1, i, s =>
    match exec i s with
    | .next t => repeatExec n i t
    | .fault r => .fault r
    | .refused r => .refused r

/-- Instruction i, executed once for the issue and once for the answer of each of its 57 actions, with its two mode switches answered
`ok`, sends the byte x: the trace grows by SEND_BYTE(x), the two pins end as those actions make them, and the sampled level goes,
inverted, to the byte's bit of ACK_LOG (R121, R157, R159). -/
def ByteSent (i : Instr) (start : Nat) (x : Byte) : Prop :=
  ∀ s rest, AtByte start 0 s → s.outstanding = none → s.cfgScript = .ok :: .ok :: rest →
    ∃ t, repeatExec 114 i s = .next t ∧ t.fsm = .busy ∧ t.seqIdx.toNat = start + 57 ∧ t.outstanding = none ∧
      t.faultCause = s.faultCause ∧ t.trace = s.trace ++ sendByte s.clkPin s.dioPin x ∧
      (s.clkPin ≠ s.dioPin → wiresOf t = wiresAfter s.clkPin s.dioPin (wiresOf s) (sendByte s.clkPin s.dioPin x)) ∧
      ∀ b more, s.levelScript = b :: more → t.ackLog = ackAfter (BitVec.ofNat 8 (start + 51)) (!b) s.ackLog

/-- The indices at which a segment write switches the mode of DIO (R203, R205). -/
def modeSwitches : List Nat := [50, 58, 115, 123, 172, 180, 237, 245]

end Sys2Proof
end

