-- ==== Sys2Proof/Certificates/Slice0/Obligations.lean ====
section
/-! DEFINITION. The statements about the TM1637 protocol engine. None is about a program. -/

open Sys2Proof Sys2Proof.Machine

/-! ## Encodings -/

/-- Words written out from the formats of 30_encoding decode to what they stand for (R92, R93, R94, R97, R100). -/
def Obligations.DecodesWordsOfTheFormats : Prop :=
  decode (.cmd 0x01001213) = .ok (.init 18 19) ∧
  decode (.cmd 0x020000C8) = .ok (.setBrightness 200) ∧
  decode (.cmd 0x0300033F) = .ok (.writeSegmentRaw 3 0x3F) ∧
  decode (.enc 0b1_0000_1000#9) = .ok (.encode true 8) ∧
  decode (.wire .dataCmd 0b0100_0100#8) = .ok .wireDataCmd ∧
  decode (.wire .addrCmd 0b1100_0010#8) = .ok (.wireAddrCmd 2) ∧
  decode (.wire .data 0b1000_0110#8) = .ok (.wireData 0x86) ∧
  decode (.wire .dispCtrl 0b1000_1010#8) = .ok (.wireDispCtrl 2)

/-- Every instruction, with every operand its encoding admits, decodes back from its encoding (R90 to R97, R100). -/
def Obligations.DecodeOfEncode : Prop :=
  ∀ i : Instr, decode (encode i) = .ok i

/-- R95: a word is illegal exactly when its OPC is none of 1, 2, 3 or a reserved field of its format is not 0; every other word is one
of the three commands; an illegal word raises ILLEGAL_CMD and nothing else changes. -/
def Obligations.IllegalWords : Prop :=
  ∀ w : Word,
    ((∃ e, decode (.cmd w) = .error e) ↔
      (opcOf w ≠ 0x01 ∧ opcOf w ≠ 0x02 ∧ opcOf w ≠ 0x03) ∨
      (opcOf w = 0x01 ∧ bits23to16 w ≠ 0) ∨ (opcOf w = 0x02 ∧ bits23to8 w ≠ 0) ∨ (opcOf w = 0x03 ∧ bits23to16 w ≠ 0)) ∧
    (∀ i, decode (.cmd w) = .ok i →
      (∃ c d, i = .init c d) ∨ (∃ l, i = .setBrightness l) ∨ (∃ p b, i = .writeSegmentRaw p b)) ∧
    (∀ s : State, (∃ e, decode (.cmd w) = .error e) → s.fsm = .uninit ∨ s.fsm = .idle →
      writeReg 0 w s = .next { s with faultCause := .illegalCmd, faultInfo := w, fsm := .fault })

/-! ## Acceptance of a command word -/

/-- R201: in UNINIT and IDLE a word written to CMD raises the first cause that applies, in the spec's order, and is performed when none
does; in FAULT it is discarded (R209), and in BUSY, where it does not happen yet (R120), it leaves the state as it is, as log entry 9
(DEDUCED) has it. -/
def Obligations.ChecksInOrder : Prop :=
  ∀ (w : Word) (s : State),
    (s.fsm = .busy ∨ s.fsm = .fault → writeReg 0 w s = .next s) ∧
    (s.fsm = .uninit ∨ s.fsm = .idle →
      let refused := fun c : FaultCause => writeReg 0 w s = .next { s with faultCause := c, faultInfo := w, fsm := .fault }
      if opcOf w ≠ 0x01 ∧ opcOf w ≠ 0x02 ∧ opcOf w ≠ 0x03 then refused .illegalCmd
      else if opcOf w = 0x01 ∧ bits23to16 w ≠ 0 then refused .illegalCmd
      else if opcOf w = 0x02 ∧ bits23to8 w ≠ 0 then refused .illegalCmd
      else if opcOf w = 0x03 ∧ bits23to16 w ≠ 0 then refused .illegalCmd
      else if opcOf w ≠ 0x01 ∧ s.fsm = .uninit then refused .notInit
      else if opcOf w = 0x01 ∧ bits15to8 w = bits7to0 w then refused .pinConflict
      else if opcOf w = 0x03 ∧ hw.nDigits ≤ (bits15to8 w).toNat then refused .posRange
      else ∃ t, writeReg 0 w s = .next t ∧ t.fsm ≠ .fault ∧ t.faultCause = s.faultCause ∧ t.faultInfo = s.faultInfo)

/-- R120: a CMD write that meets BUSY does not happen yet: the host makes no move and the operation stays first in its queue, and the
engine or its collaborator moves, unless there is a hang. -/
def Obligations.BusyHoldsCmdWrite : Prop :=
  ∀ (s t : State) (w : Word) (rest : List HostReq),
    s.fsm = .busy → s.host = ⟨0, .write 0 w⟩ :: rest → dueEvent s = none → step s = .next t →
      t.host = s.host ∧
        (if s.hung then t = elapse s
        else ∃ a, (s.outstanding = some a ∧ t = answer a (elapse s)) ∨ (s.outstanding = none ∧ t = issue a (elapse s)))

/-- R209: in FAULT a CMD write is discarded: no register changes and no action is emitted. -/
def Obligations.FaultDiscardsCmdWrite : Prop :=
  ∀ (s : State) (w : Word), s.fsm = .fault →
    writeReg 0 w s = .next s ∧
    (∀ c d, exec (.init c d) s = .next s) ∧ (∀ l, exec (.setBrightness l) s = .next s) ∧
    (∀ p b, exec (.writeSegmentRaw p b) s = .next s)

/-- R123, R130: what INIT does on acceptance in UNINIT and IDLE, the whole next state. -/
def Obligations.InitResult : Prop :=
  ∀ (s : State) (c d : PinId), s.fsm = .uninit ∨ s.fsm = .idle →
    (c ≠ d → exec (.init c d) s = .next { s with
      clkPin := c, dioPin := d, brightness := hw.defaultBrightness, ackLog := 0, op := .init, seqIdx := 0, fsm := .busy }) ∧
    (c = d → exec (.init c d) s = .next { s with
      faultCause := .pinConflict, faultInfo := 0x01#8 ++ 0x00#8 ++ c ++ d, fsm := .fault })

/-- R124, R125: what SET_BRIGHTNESS does on acceptance, the whole next state; the clamp is min(LEVEL, 7) as a number. -/
def Obligations.SetBrightnessResult : Prop :=
  ∀ (s : State) (l : Byte),
    (s.fsm = .idle → ∃ t, exec (.setBrightness l) s = .next t ∧ t.brightness.toNat = min l.toNat 7 ∧
      t = { s with brightness := t.brightness }) ∧
    (s.fsm = .uninit → exec (.setBrightness l) s = .next { s with
      faultCause := .notInit, faultInfo := 0x02#8 ++ 0x0000#16 ++ l, fsm := .fault })

/-- R126: what WRITE_SEGMENT_RAW does on acceptance, the whole next state; the position it keeps is POS as a number. -/
def Obligations.WriteSegmentRawResult : Prop :=
  ∀ (s : State) (p b : Byte),
    (s.fsm = .idle → p.toNat < hw.nDigits → ∃ t, exec (.writeSegmentRaw p b) s = .next t ∧ t.position.toNat = p.toNat ∧
      t = { s with position := t.position, bitmap := b, ackLog := 0, op := .write, seqIdx := 0, fsm := .busy }) ∧
    (s.fsm = .idle → hw.nDigits ≤ p.toNat → exec (.writeSegmentRaw p b) s = .next { s with
      faultCause := .posRange, faultInfo := 0x03#8 ++ 0x00#8 ++ p ++ b, fsm := .fault }) ∧
    (s.fsm = .uninit → exec (.writeSegmentRaw p b) s = .next { s with
      faultCause := .notInit, faultInfo := 0x03#8 ++ 0x00#8 ++ p ++ b, fsm := .fault })

/-- The frame of the three commands: whatever a command does, it emits no action itself, touches no pin, the ENCODE port or the outside
world, and writes only the registers R123, R124, R126 and R202 name for it. -/
def Obligations.CommandFrame : Prop :=
  ∀ s t : State,
    let common := t.outstanding = s.outstanding ∧ t.hung = s.hung ∧ t.trace = s.trace ∧ SamePins s t ∧ SameEncoder s t ∧ SameOutside s t
    (∀ c d, exec (.init c d) s = .next t → common ∧ t.position = s.position ∧ t.bitmap = s.bitmap) ∧
    (∀ l, exec (.setBrightness l) s = .next t → common ∧ t.op = s.op ∧ t.seqIdx = s.seqIdx ∧ t.clkPin = s.clkPin ∧
      t.dioPin = s.dioPin ∧ t.position = s.position ∧ t.bitmap = s.bitmap ∧ t.ackLog = s.ackLog) ∧
    (∀ p b, exec (.writeSegmentRaw p b) s = .next t → common ∧ t.clkPin = s.clkPin ∧ t.dioPin = s.dioPin ∧
      t.brightness = s.brightness)

/-! ## The ENCODE port and its ROM -/

/-- R184: ENCODE in every state drives the port's two inputs and changes nothing else; ENC_OUT is then the ROM's entry with the dot
merged in, so bit 7 is the dot and the other bits are the entry's, whatever FSM is, and a reset does not change it. -/
def Obligations.EncodeResult : Prop :=
  ∀ (s : State) (dot : Bool) (idx : Byte), ∃ t,
    exec (.encode dot idx) s = .next t ∧ t = { s with encDot := dot, encIdx := idx } ∧
    encOut t = rom hw idx ||| ((BitVec.ofBool dot).setWidth 8 <<< 7) ∧ (encOut t).getLsbD 7 = dot ∧
    (∀ k < 7, (encOut t).getLsbD k = (rom hw idx).getLsbD k) ∧ encOut (engineReset t) = encOut t ∧
    ∀ f : Fsm, encOut { t with fsm := f } = encOut t

/-- The ROM of this hardware (R181), entry by entry. The entries 1 to 7, 9 to 14 and 16 are general knowledge (log entry 15); the
source's entries 0, 8, 15 and the blank ones, and bit 7 of the encoder's output being the dot, hold for every legal value of the
parameters. -/
def Obligations.RomContents : Prop :=
  (List.map (rom hw) ([0, 1, 2, 3, 4, 5, 6, 7, 8, 9, 10, 11, 12, 13, 14, 15, 16] : List Byte) =
    ([0x3F, 0x06, 0x5B, 0x4F, 0x66, 0x6D, 0x7D, 0x07, 0x7F, 0x6F, 0x77, 0x7C, 0x39, 0x5E, 0x79, 0x71, 0x40] : List Byte)) ∧
  (∀ idx : Byte, 17 ≤ idx.toNat → rom hw idx = 0x00) ∧ (∀ idx : Byte, (rom hw idx).getLsbD 7 = false) ∧
  (∀ P : Params, P.Legal → rom P 0 = 0x3F ∧ rom P 8 = 0x7F ∧ rom P 15 = 0x71 ∧
    (∀ idx : Byte, 16 ≤ idx.toNat → idx ≠ P.minusIdx → rom P idx = 0x00) ∧
    ∀ (dot : Bool) (idx : Byte), (encodeGlyph P dot idx).getLsbD 7 = dot ∧
      ∀ k < 7, (encodeGlyph P dot idx).getLsbD k = (rom P idx).getLsbD k)

/-- R183: APPLY_DOT sets bit 7 when the flag is set, never clears it, and leaves bits 0 to 6. -/
def Obligations.ApplyDotBits : Prop :=
  ∀ (bm : Byte) (flag : Bool),
    applyDot bm flag = bm ||| ((BitVec.ofBool flag).setWidth 8 <<< 7) ∧
    (applyDot bm flag).getLsbD 7 = (bm.getLsbD 7 || flag) ∧ applyDot bm false = bm ∧
    ∀ k < 7, (applyDot bm flag).getLsbD k = bm.getLsbD k

/-! ## The sequences and the wire -/

/-- R242: the action counts of every command and micro-operation; acceptance itself, a refused and a discarded word emit nothing. -/
def Obligations.ActionCounts : Prop :=
  (∀ (c d : PinId) (pos : BitVec 3) (bm : Byte) (bri : BitVec 3),
    let counts := fun l : List Action => [l.length, l.countP isDelay, l.countP isSet, l.countP isCfgOut, l.countP isCfgIn, l.countP isGet]
    let sizes := fun l : List Action => [l.length, l.countP isDelay]
    counts (initSeq c d) = [6, 2, 2, 2, 0, 0] ∧ counts (writeSeq c d pos bm bri) = [252, 120, 120, 4, 4, 4] ∧
    sizes (startSeq d) = [2, 1] ∧ sizes (stopSeq c d) = [6, 3] ∧ (∀ b, sizes (sendBit c d b) = [6, 3]) ∧
    sizes (ackSeq c d) = [9, 3] ∧ (∀ x, sizes (sendByte c d x) = [57, 27]) ∧ sizes (t1 c d) = [65, 31] ∧
    sizes (t3 c d bri) = [65, 31] ∧ sizes (t2 c d pos bm) = [122, 58]) ∧
  (∀ (w : Word) (s t : State), writeReg 0 w s = .next t → t.trace = s.trace ∧ t.outstanding = s.outstanding)

/-- R163: the sequence that a segment write runs, its index map part by part, the place of every data bit of its four bytes, and its
counts. -/
def Obligations.WriteSeqIndexMap : Prop :=
  ∀ (c d : PinId) (pos : BitVec 3) (bm : Byte) (bri : BitVec 3),
    let part := fun first last : Nat => ((writeSeq c d pos bm bri).drop first).take (last + 1 - first)
    writeSeq c d pos bm bri = t1 c d ++ t2 c d pos bm ++ t3 c d bri ∧ (writeSeq c d pos bm bri).length = 252 ∧
    part 0 1 = startSeq d ∧ part 2 58 = sendByte c d 0x44 ∧ part 50 58 = ackSeq c d ∧ part 59 64 = stopSeq c d ∧
    part 65 66 = startSeq d ∧ part 67 123 = sendByte c d (0xC0#8 ||| pos.setWidth 8) ∧ part 115 123 = ackSeq c d ∧
    part 124 180 = sendByte c d bm ∧ part 172 180 = ackSeq c d ∧ part 181 186 = stopSeq c d ∧
    part 187 188 = startSeq d ∧ part 189 245 = sendByte c d (0x88#8 ||| bri.setWidth 8) ∧ part 237 245 = ackSeq c d ∧
    part 246 251 = stopSeq c d ∧
    (∀ i : Nat, (∃ p, (writeSeq c d pos bm bri)[i]? = some (Action.get p)) ↔ i = 53 ∨ i = 118 ∨ i = 175 ∨ i = 240) ∧
    (∀ i : Nat, i < 8 →
      (writeSeq c d pos bm bri)[2 + 6 * i + 2]? = some (Action.set d ((0x44#8).getLsbD i)) ∧
      (writeSeq c d pos bm bri)[67 + 6 * i + 2]? = some (Action.set d ((0xC0#8 ||| pos.setWidth 8).getLsbD i)) ∧
      (writeSeq c d pos bm bri)[124 + 6 * i + 2]? = some (Action.set d (bm.getLsbD i)) ∧
      (writeSeq c d pos bm bri)[189 + 6 * i + 2]? = some (Action.set d ((0x88#8 ||| bri.setWidth 8).getLsbD i))) ∧
    ([isDelay, isGet, isCfgIn, isCfgOut, isSet].map fun p => (writeSeq c d pos bm bri).countP p) = [120, 4, 4, 4, 120] ∧
    (∀ s : State, s.op = .write → curSeq s = writeSeq s.clkPin s.dioPin s.position s.bitmap s.brightness)

/-- R36, R65, R159: a byte goes least significant bit first, bit i driven at offset 6i + 2 and DIO driven at no other offset before the
acknowledge window, whose GET is at offset 51; and the shift-register form of R159's pseudocode emits the same actions. -/
def Obligations.SendByteLsbFirst : Prop :=
  ∀ (c d : PinId) (x : Byte),
    (∀ i : Nat, i < 8 → (sendByte c d x)[6 * i + 2]? = some (Action.set d (x.getLsbD i))) ∧
    (c ≠ d → ∀ (i : Nat) (v : Level), i < 48 → (sendByte c d x)[i]? = some (Action.set d v) → ∃ k : Nat, k < 8 ∧ i = 6 * k + 2) ∧
    (sendByte c d x).drop 48 = ackSeq c d ∧ (sendByte c d x)[51]? = some (.get d) ∧
    sendByteShift c d x = sendByte c d x

/-- R164: the line levels at the boundaries of the micro-operations, from the pins as each finds them. -/
def Obligations.LineLevels : Prop :=
  ∀ (c d : PinId), c ≠ d →
    wiresAfter c d idleHigh (startSeq d) = ⟨.out, .high, .out, .low⟩ ∧
    (∀ (w : Wires) (b : Level), wiresAfter c d w (sendBit c d b) = { w with clkLatch := .high, dioLatch := latchOfLevel b }) ∧
    (∀ (w : Wires) (b : Level), wiresAfter c d w (sendBit c d b ++ [.cfgIn d]) =
      { w with clkLatch := .high, dioLatch := latchOfLevel b, dioDir := .input }) ∧
    (∀ w : Wires, wiresAfter c d w (ackSeq c d) = { w with clkLatch := .low, dioDir := .out }) ∧
    (∀ (w : Wires) (x : Byte), w.clkDir = .out → w.dioDir = .out →
      wiresAfter c d w (sendByte c d x) = ⟨.out, .low, .out, latchOfLevel (x.getLsbD 7)⟩) ∧
    (∀ l : Latch, wiresAfter c d ⟨.out, .low, .out, l⟩ (stopSeq c d) = idleHigh) ∧
    (∀ w : Wires, wiresAfter c d w (initSeq c d) = idleHigh) ∧
    (∀ pos bm bri, wiresAfter c d idleHigh (writeSeq c d pos bm bri) = idleHigh)

/-- R165, R241: the start and stop conditions that a segment write drives, whatever the outside world does; the only other places for a
condition are a window's CFG_IN and its stretch from C1 to C0, where the outside world has DIO. And INIT_SEQ, from any pins: its D1 makes
a stop condition exactly when DIO was low (R231), and nothing is left to happen after it. -/
def Obligations.DrivenConditions : Prop :=
  ∀ (c d : PinId) (ext : Nat → Outside), c ≠ d →
    (∀ (pos : BitVec 3) (bm : Byte) (bri : BitVec 3),
      let driven : List (Nat × WireEdge) := [(0, .start), (63, .stop), (65, .start), (185, .stop), (187, .start), (250, .stop)]
      let all := edgesFrom ext c d 0 idleHigh (writeSeq c d pos bm bri)
      (∀ p ∈ driven, p ∈ all) ∧
      ∀ p ∈ all, p ∈ driven ∨ p.1 ∈ [50, 115, 172, 237] ∨ p.1 ∈ [55, 120, 177, 242]) ∧
    ∀ w : Wires,
      ((4, .stop) ∈ edgesFrom ext c d 0 w (initSeq c d) ↔ lineLevel .out w.dioLatch (ext 4).dio = false) ∧
      (4, .start) ∉ edgesFrom ext c d 0 w (initSeq c d) ∧ ∀ k, (5, k) ∉ edgesFrom ext c d 0 w (initSeq c d)

/-- R156: DIO is an input exactly from the completion of a window's CFG_IN to the completion of its CFG_OUT, in all four windows, and an
output everywhere else. -/
def Obligations.DioReleasedInWindows : Prop :=
  ∀ (c d : PinId) (pos : BitVec 3) (bm : Byte) (bri : BitVec 3) (n : Nat), c ≠ d → n ≤ 252 →
    (wiresAfter c d idleHigh ((writeSeq c d pos bm bri).take n)).dioDir =
      (if (51 ≤ n ∧ n ≤ 58) ∨ (116 ≤ n ∧ n ≤ 123) ∨ (173 ≤ n ∧ n ≤ 180) ∨ (238 ≤ n ∧ n ≤ 245) then .input else .out)

/-- R166, R165, V-H: at a window's CFG_IN the wire sees a stop condition exactly when bit 7 of the byte is 0 and the outside world has the
released line at 1, a start condition exactly when bit 7 is 1 and it has it at 0; in the stretch with CLK high it sees what the outside
world does; and all conditions of a segment write with DIO held at a constant level whenever it is released. -/
def Obligations.InputSwitchHazard : Prop :=
  ∀ (c d : PinId) (pos : BitVec 3) (bm : Byte) (bri : BitVec 3), c ≠ d →
    (∀ (ext : Nat → Outside) (start : Nat) (top : Bool),
      (start, top) ∈ [(2, false), (67, true), (124, bm.getLsbD 7), (189, true)] →
      let all := edgesFrom ext c d 0 idleHigh (writeSeq c d pos bm bri)
      ((start + 48, .stop) ∈ all ↔ top = false ∧ (ext (start + 49)).dio = true) ∧
      ((start + 48, .start) ∈ all ↔ top = true ∧ (ext (start + 49)).dio = false) ∧
      ((start + 53, .stop) ∈ all ↔ (ext (start + 53)).dio = false ∧ (ext (start + 54)).dio = true) ∧
      ((start + 53, .start) ∈ all ↔ (ext (start + 53)).dio = true ∧ (ext (start + 54)).dio = false)) ∧
    edgesFrom (held true) c d 0 idleHigh (writeSeq c d pos bm bri) =
      (if bm.getLsbD 7 then
        ([(0, .start), (50, .stop), (63, .stop), (65, .start), (185, .stop), (187, .start), (250, .stop)] : List (Nat × WireEdge))
      else
        [(0, .start), (50, .stop), (63, .stop), (65, .start), (172, .stop), (185, .stop), (187, .start), (250, .stop)]) ∧
    edgesFrom (held false) c d 0 idleHigh (writeSeq c d pos bm bri) =
      (if bm.getLsbD 7 then
        ([(0, .start), (63, .stop), (65, .start), (115, .start), (172, .start), (185, .stop), (187, .start), (237, .start),
          (250, .stop)] : List (Nat × WireEdge))
      else
        [(0, .start), (63, .stop), (65, .start), (115, .start), (185, .stop), (187, .start), (237, .start), (250, .stop)])

/-- R243: the delays of a segment write take at least 120 times T_DELAY_US, those of an INIT at least twice T_DELAY_US; and
T_DELAY_US is at least 1 (R6). -/
def Obligations.DelayBounds : Prop :=
  1 ≤ Config.tDelayUs ∧
  ∀ (c d : PinId) (pos : BitVec 3) (bm : Byte) (bri : BitVec 3),
    delayTotal (writeSeq c d pos bm bri) = 120 * Config.tDelayUs ∧ delayTotal (initSeq c d) = 2 * Config.tDelayUs

/-! ## A step runs the decoded instruction -/

/-- A host operation whose turn it is, with the operation taken from the queue: a CMD write outside BUSY (where it is held) is `writeReg`
of its word, legal or not, which is exec of i for a word that decodes to i, with a legal INIT noted for the run (R129); an input driven on
the ENCODE port, in every FSM state, is exec of what it decodes to. -/
def Obligations.StepRunsHostInstruction : Prop :=
  ∀ (s : State) (rest : List HostReq) (i : Instr), dueEvent s = none →
    (∀ w, s.host = ⟨0, .write 0 w⟩ :: rest → s.fsm ≠ .busy →
      step s = writeReg 0 w { s with host := rest, initWritten := s.initWritten || legalInit w }) ∧
    (∀ w, s.host = ⟨0, .write 0 w⟩ :: rest → s.fsm ≠ .busy → decode (.cmd w) = .ok i →
      step s = exec i { s with host := rest, initWritten := s.initWritten || legalInit w }) ∧
    (∀ dot idx, s.host = ⟨0, .encode dot idx⟩ :: rest → decode (.enc (BitVec.ofBool dot ++ idx)) = .ok i →
      step s = exec i { s with host := rest })

/-- In BUSY at a byte of a segment write, with neither the host nor an event to move: the step is exec of what the byte decodes to in its
place, with one move counted in the two queues. -/
def Obligations.StepRunsWireByte : Prop :=
  ∀ (s : State) (role : ByteRole) (i : Instr),
    NothingDue s → s.fsm = .busy → s.op = .write → roleAt s.seqIdx.toNat = some role →
    decode (.wire role (wireByte role s.position s.bitmap s.brightness)) = .ok i →
      step s = exec i { s with host := tickHost s.host, events := tickEvents s.events }

/-! ## The sequencer -/

/-- R66, R121: with nothing outstanding the engine issues the action of the running sequence at SEQ_IDX: it joins the trace and is
outstanding, and nothing else of the machine changes. -/
def Obligations.SequencerIssues : Prop :=
  ∀ (s : State) (a : Action),
    NothingDue s → s.fsm = .busy → s.outstanding = none → (curSeq s)[s.seqIdx.toNat]? = some a →
      step s = .next { s with
        outstanding := some a, trace := s.trace ++ [a], host := tickHost s.host, events := tickEvents s.events }

/-- R121, R122: what the answer to the outstanding action leaves, for every kind of action: a failed pin configuration faults and keeps
SEQ_IDX; anything else goes on to the next index, or after the last action to IDLE with SEQ_IDX 0. That the GET of a line the pin drives
returns its latch is log entry 18 (DEDUCED from R34 and R70). -/
def Obligations.SequencerAnswers : Prop :=
  ∀ (s : State) (a : Action), NothingDue s → s.fsm = .busy → s.outstanding = some a →
    ∃ t, step s = .next t ∧ t.outstanding = none ∧ t.trace = s.trace ∧
      t.op = s.op ∧ t.clkPin = s.clkPin ∧ t.dioPin = s.dioPin ∧ t.brightness = s.brightness ∧ t.position = s.position ∧
      t.bitmap = s.bitmap ∧ SameEncoder s t ∧ t.rdData = s.rdData ∧
      (if ((∃ p, a = .cfgOut p) ∨ ∃ p, a = .cfgIn p) ∧ cfgAnswer s = .fail then
        t.fsm = .fault ∧ t.seqIdx = s.seqIdx ∧ t.ackLog = s.ackLog ∧ SamePins s t ∧
          t.faultCause = (if s.op = .init then .gpioInitFail else .gpioRuntimeFail) ∧
          t.faultInfo = (if s.op = .init then 0x01#8 else 0x03#8) ++ 0x0000#16 ++ s.seqIdx
      else
        t.faultCause = s.faultCause ∧ t.faultInfo = s.faultInfo ∧
          t.ackLog = (match a with
            | .get p => ackAfter s.seqIdx (!(drivenLevel p s).getD (outsideBit s)) s.ackLog
            | _ => s.ackLog) ∧
          (if s.seqIdx.toNat + 1 = (curSeq s).length then t.fsm = .idle ∧ t.seqIdx = 0
          else t.fsm = .busy ∧ t.seqIdx = s.seqIdx + 1))

/-- R33, R67 to R71: what an answered action does to the pins, in every state: its own effect on its own pin and nothing to any other. -/
def Obligations.PinEffects : Prop :=
  ∀ (s : State) (p q : PinId) (v : Level) (n : Nat),
    (cfgAnswer s = .ok → dirOf p (answer (.cfgOut p) s) = .out ∧ dirOf p (answer (.cfgIn p) s) = .input ∧
      latchOf q (answer (.cfgOut p) s) = latchOf q s ∧ latchOf q (answer (.cfgIn p) s) = latchOf q s ∧
      (q ≠ p → dirOf q (answer (.cfgOut p) s) = dirOf q s ∧ dirOf q (answer (.cfgIn p) s) = dirOf q s)) ∧
    (cfgAnswer s = .fail → SamePins s (answer (.cfgOut p) s) ∧ SamePins s (answer (.cfgIn p) s)) ∧
    latchOf p (answer (.set p v) s) = (if v then .high else .low) ∧ dirOf q (answer (.set p v) s) = dirOf q s ∧
    (q ≠ p → latchOf q (answer (.set p v) s) = latchOf q s) ∧
    SamePins s (answer (.get p) s) ∧ SamePins s (answer (.delay n) s)

/-- R159, R160, R161, R162: each of the four wire bytes, in its place with nothing outstanding, issues the next action of its SEND_BYTE
and changes nothing else. -/
def Obligations.WireBytesIssue : Prop :=
  ByteIssues .wireDataCmd 2 0x44 ∧ (∀ pos, ByteIssues (.wireAddrCmd pos) 67 (0xC0#8 ||| pos.setWidth 8)) ∧
  (∀ bm, ByteIssues (.wireData bm) 124 bm) ∧ (∀ bri, ByteIssues (.wireDispCtrl bri) 189 (0x88#8 ||| bri.setWidth 8))

/-- R121, R157, R205: each of the four wire bytes, in its place with an action in flight, takes the answer: the whole next state for
every kind of action. That the GET of a driven line returns its latch (the third clause) is log entry 18 (DEDUCED from R34 and R70), and
that an instruction is one move is log entry 10. -/
def Obligations.WireBytesAnswer : Prop :=
  ByteAnswers .wireDataCmd 2 ∧ (∀ pos, ByteAnswers (.wireAddrCmd pos) 67) ∧ (∀ bm, ByteAnswers (.wireData bm) 124) ∧
  (∀ bri, ByteAnswers (.wireDispCtrl bri) 189)

/-- R159: each of the four wire bytes, begun in its place and executed for its 57 actions, sends its byte and ends at the index after it.
That this takes 114 executions, an issue and an answer each, is log entry 10's choice. -/
def Obligations.WireBytesSent : Prop :=
  ByteSent .wireDataCmd 2 0x44 ∧ (∀ pos, ByteSent (.wireAddrCmd pos) 67 (0xC0#8 ||| pos.setWidth 8)) ∧
  (∀ bm, ByteSent (.wireData bm) 124 bm) ∧ (∀ bri, ByteSent (.wireDispCtrl bri) 189 (0x88#8 ||| bri.setWidth 8))

/-- R97, R163 and the model's choice of log entry 10: outside its place in a running segment write a wire byte is not sent, and its
instruction is refused by name. -/
def Obligations.WireByteOutOfPlace : Prop :=
  ∀ s : State,
    (¬(s.fsm = .busy ∧ s.op = .write ∧ 2 ≤ s.seqIdx.toNat ∧ s.seqIdx.toNat ≤ 58) →
      exec .wireDataCmd s = .refused .byteOutOfPlace) ∧
    (¬(s.fsm = .busy ∧ s.op = .write ∧ 67 ≤ s.seqIdx.toNat ∧ s.seqIdx.toNat ≤ 123) →
      ∀ pos, exec (.wireAddrCmd pos) s = .refused .byteOutOfPlace) ∧
    (¬(s.fsm = .busy ∧ s.op = .write ∧ 124 ≤ s.seqIdx.toNat ∧ s.seqIdx.toNat ≤ 180) →
      ∀ bm, exec (.wireData bm) s = .refused .byteOutOfPlace) ∧
    (¬(s.fsm = .busy ∧ s.op = .write ∧ 189 ≤ s.seqIdx.toNat ∧ s.seqIdx.toNat ≤ 245) →
      ∀ bri, exec (.wireDispCtrl bri) s = .refused .byteOutOfPlace)

/-- The frame of the four wire bytes: whatever a move of a byte does, it leaves the command's operands, the ENCODE port, the host's
queue and the events, and every pin but CLK_PIN and DIO_PIN, if the outstanding action is one of the running sequence. -/
def Obligations.WireByteFrame : Prop :=
  ∀ (s t : State) (i : Instr),
    i = .wireDataCmd ∨ (∃ pos, i = .wireAddrCmd pos) ∨ (∃ bm, i = .wireData bm) ∨ (∃ bri, i = .wireDispCtrl bri) →
    exec i s = .next t →
      t.op = s.op ∧ t.clkPin = s.clkPin ∧ t.dioPin = s.dioPin ∧ t.brightness = s.brightness ∧ t.position = s.position ∧
      t.bitmap = s.bitmap ∧ SameEncoder s t ∧ t.hung = s.hung ∧ t.host = s.host ∧ t.events = s.events ∧ t.rdData = s.rdData ∧
      (s.Inv → ∀ p, p ≠ s.clkPin → p ≠ s.dioPin → dirOf p t = dirOf p s ∧ latchOf p t = latchOf p s)

/-- R157: the GET of byte k of a segment write, answered with level b, writes ACK_LOG[k] to 1 if b is 0 and to 0 if b is 1, and no other
bit; the GETs of bytes 0 to 3 are at 53, 118, 175, 240. The level is the outside world's where DIO is released;
that it is the latch where the pin drives DIO is log entry 18 (DEDUCED from R34 and R70). -/
def Obligations.AckSampler : Prop :=
  ∀ (s t : State) (b : Level) (k : Nat),
    NothingDue s → s.fsm = .busy → s.op = .write → s.outstanding = some (.get s.dioPin) →
    (k = 0 ∧ s.seqIdx = 53) ∨ (k = 1 ∧ s.seqIdx = 118) ∨ (k = 2 ∧ s.seqIdx = 175) ∨ (k = 3 ∧ s.seqIdx = 240) →
    (drivenLevel s.dioPin s).getD (outsideBit s) = b → step s = .next t →
      t.ackLog.getLsbD k = !b ∧ ∀ j < 4, j ≠ k → t.ackLog.getLsbD j = s.ackLog.getLsbD j

/-- R158, R121: what the GETs returned steers nothing. Two states that differ only in ACK_LOG, in the levels to come from the outside
world and in what the host last read step alike and differ in no more afterwards; so, step after step, the same actions follow, and no
ACK_LOG bit raises a fault or a retry. -/
def Obligations.MissingAckTolerated : Prop :=
  ∀ s s' t : State, SameButSamples s s' → step s = .next t → ∃ t', step s' = .next t' ∧ SameButSamples t t'

/-- R128, R236: nor does the state of the pins: two states that differ in any pins' directions and latches besides step alike and differ
in no more afterwards. -/
def Obligations.PinsDoNotSteer : Prop :=
  ∀ s s' t : State, SameButPins s s' → step s = .next t → ∃ t', step s' = .next t' ∧ SameButPins t t'

/-! ## Faults of the sequencer, fault entry and reset -/

/-- R204: a fail response to the CFG_OUT at index 0 or 1 of INIT_SEQ raises GPIO_INIT_FAIL with {0x01, 0x0000, SEQ_IDX}, and nothing
further is emitted: from there no step extends the trace unless a reset comes. -/
def Obligations.InitPinFailure : Prop :=
  ∀ (s : State) (p : PinId),
    NothingDue s → s.fsm = .busy → s.op = .init → s.outstanding = some (.cfgOut p) →
    (s.seqIdx = 0 ∧ p = s.clkPin) ∨ (s.seqIdx = 1 ∧ p = s.dioPin) → cfgAnswer s = .fail →
      ∃ t, step s = .next t ∧ t.fsm = .fault ∧ t.faultCause = .gpioInitFail ∧
        t.faultInfo = 0x01#8 ++ 0x0000#16 ++ s.seqIdx ∧ t.trace = s.trace ∧ t.outstanding = none ∧ SamePins s t ∧
        ∀ u, step t = .next u → u.trace = t.trace ∧ (dueEvent t ≠ some .reset → u.fsm = .fault)

/-- R205: a fail response to the CFG_IN or CFG_OUT of an acknowledge window raises GPIO_RUNTIME_FAIL with {0x03, 0x0000, SEQ_IDX}, and
nothing further is emitted. -/
def Obligations.WindowPinFailure : Prop :=
  ∀ s : State,
    NothingDue s → s.fsm = .busy → s.op = .write →
    (s.seqIdx.toNat ∈ [50, 115, 172, 237] ∧ s.outstanding = some (.cfgIn s.dioPin)) ∨
      (s.seqIdx.toNat ∈ [58, 123, 180, 245] ∧ s.outstanding = some (.cfgOut s.dioPin)) →
    cfgAnswer s = .fail →
      ∃ t, step s = .next t ∧ t.fsm = .fault ∧ t.faultCause = .gpioRuntimeFail ∧
        t.faultInfo = 0x03#8 ++ 0x0000#16 ++ s.seqIdx ∧ t.seqIdx = s.seqIdx ∧ t.trace = s.trace ∧ t.outstanding = none ∧
        SamePins s t ∧ ∀ u, step t = .next u → u.trace = t.trace ∧ (dueEvent t ≠ some .reset → u.fsm = .fault)

/-- R207: FAULT is left only by reset; whatever else happens there leaves every engine register, so the first cause and its information
are kept. -/
def Obligations.FaultLeftOnlyByReset : Prop :=
  ∀ s t : State, s.fsm = .fault → step s = .next t →
    (dueEvent s = some .reset ∧ t.fsm = .uninit) ∨ (dueEvent s ≠ some .reset ∧ SameEngine s t)

/-- R230, R232: a reset event, in any state, gives every engine register its reset value and abandons the outstanding action; it emits
nothing and touches neither the pins nor the ENCODE port; and a response that arrives for an abandoned action is ignored. That the
abandoned action leaves every pin is log entry 7 (DEDUCED, R231), and that a late response is ignored whatever the engine is doing by
then is log entry 26 (DEDUCED). -/
def Obligations.ResetEvent : Prop :=
  (∀ s : State, dueEvent s = some .reset →
    ∃ t, step s = .next t ∧ SameEngine State.reset t ∧ t.outstanding = none ∧ t.hung = false ∧ t.trace = s.trace ∧ t.dirs = s.dirs ∧
      t.latches = s.latches ∧ SameEncoder s t ∧ encOut t = encOut s ∧ t.rdData = s.rdData) ∧
  (∀ (s : State) (r : Response), dueEvent s = some (.lateResponse r) → step s = .next { s with events := s.events.tail })

/-- R32: the reset value of every engine register. -/
def Obligations.ResetValues : Prop :=
  State.reset.fsm = .uninit ∧ State.reset.op = .init ∧ State.reset.seqIdx = 0 ∧ State.reset.clkPin = 0 ∧
  State.reset.dioPin = 0 ∧ State.reset.brightness = hw.defaultBrightness ∧ hw.defaultBrightness = 7 ∧
  State.reset.position = 0 ∧ State.reset.bitmap = 0x00 ∧ State.reset.ackLog = 0 ∧
  State.reset.faultCause = .noFault ∧ State.reset.faultInfo = 0

/-- R211 as log entry 8 reads it: a CMD write that would happen in the reset's step has no effect and is gone; one that is held in BUSY
has not happened and stays. -/
def Obligations.ResetPrecedence : Prop :=
  ∀ (s : State) (w : Word) (rest : List HostReq), dueEvent s = some .reset → s.host = ⟨0, .write 0 w⟩ :: rest →
    ∃ t, step s = .next t ∧ t.fsm = .uninit ∧ t.faultCause = .noFault ∧
      (s.fsm ≠ .busy → t.host = rest) ∧ (s.fsm = .busy → t.host = s.host)

/-- R72: when the collaborator never answers, the engine stays in BUSY with SEQ_IDX at the waiting action, whatever the host and the other
agents do, until a reset: a hang, not a fault. -/
def Obligations.UnansweredActionHangs : Prop :=
  ∀ s t : State, s.fsm = .busy → s.outstanding ≠ none → s.hung = true ∨ dueEvent s = some .noAnswer →
    dueEvent s ≠ some .reset → step s = .next t → t.hung = true ∧ SameEngine s t ∧ t.trace = s.trace

/-! ## The host's registers -/

/-- R28: every field of STATUS, bit by bit, reserved bits reading 0, with the state codes of R23 and the cause codes of R200. -/
def Obligations.StatusLayout : Prop :=
  ∀ s : State,
    (statusWord s).extractLsb' 0 2 = (match s.fsm with | .uninit => 0#2 | .idle => 1#2 | .busy => 2#2 | .fault => 3#2) ∧
    (statusWord s).getLsbD 2 = decide (s.op = .write) ∧ (statusWord s).getLsbD 3 = false ∧
    (statusWord s).extractLsb' 4 3 = s.brightness ∧ (statusWord s).getLsbD 7 = false ∧
    (statusWord s).extractLsb' 8 4 = s.ackLog ∧
    (statusWord s).extractLsb' 12 4 = (match s.faultCause with
      | .noFault => 0#4 | .illegalCmd => 1#4 | .notInit => 2#4 | .posRange => 3#4 | .pinConflict => 4#4
      | .gpioInitFail => 5#4 | .gpioRuntimeFail => 6#4) ∧
    (statusWord s).extractLsb' 16 8 = s.seqIdx ∧ (statusWord s).extractLsb' 24 8 = 0#8 ∧ statusWord State.reset = 0x00000070

/-- R30: every field of CONFIG, reserved bits reading 0, and its value at reset. -/
def Obligations.ConfigLayout : Prop :=
  ∀ s : State,
    (configWord s).extractLsb' 0 8 = s.dioPin ∧ (configWord s).extractLsb' 8 8 = s.clkPin ∧
    ((configWord s).extractLsb' 16 3).toNat = hw.nDigits ∧ (configWord s).extractLsb' 19 13 = 0#13 ∧
    configWord State.reset = 0x00040000

/-- R27, R61, R62: a register read whose turn it is gives the host CMD as 0, STATUS, FAULT_INFO or CONFIG, in every FSM state, with no
other effect; a write to STATUS, FAULT_INFO or CONFIG is ignored. -/
def Obligations.HostRegisterAccess : Prop :=
  ∀ (s : State) (rest : List HostReq), dueEvent s = none →
    (s.host = ⟨0, .read 0⟩ :: rest → step s = .next { s with host := rest, rdData := 0 }) ∧
    (s.host = ⟨0, .read 1⟩ :: rest → step s = .next { s with host := rest, rdData := statusWord s }) ∧
    (s.host = ⟨0, .read 2⟩ :: rest → step s = .next { s with host := rest, rdData := s.faultInfo }) ∧
    (s.host = ⟨0, .read 3⟩ :: rest → step s = .next { s with host := rest, rdData := configWord s }) ∧
    (∀ reg w, reg ≠ 0 → s.host = ⟨0, .write reg w⟩ :: rest → step s = .next { s with host := rest })

/-- R102 as log entry 19 reads it: `wait` reads STATUS, and while STATE is BUSY it is asked again after one more move. -/
def Obligations.WaitPollsStatus : Prop :=
  ∀ (s : State) (rest : List HostReq), dueEvent s = none → s.host = ⟨0, .poll⟩ :: rest →
    (s.fsm = .busy → step s = .next { s with host := ⟨1, .poll⟩ :: rest, rdData := statusWord s }) ∧
    (s.fsm ≠ .busy → step s = .next { s with host := rest, rdData := statusWord s })

/-- R101, R102: what every line of a host program stands for, an operand that does not fit its field being an error. `wrglyph` drives
the ENCODE port and writes the bitmap the port gives with `wrseg`; `wait` is the repeated read of log entry 19. -/
def Obligations.AssemblerExpansions : Prop :=
  (∀ clk dio, clk < 256 → dio < 256 → ∃ w, assemble (.init clk dio) = some [⟨0, .write 0 w⟩] ∧
    opcOf w = 0x01 ∧ bits23to16 w = 0 ∧ (bits15to8 w).toNat = clk ∧ (bits7to0 w).toNat = dio) ∧
  (∀ l, l < 256 → ∃ w, assemble (.setbri l) = some [⟨0, .write 0 w⟩] ∧
    opcOf w = 0x02 ∧ bits23to8 w = 0 ∧ (bits7to0 w).toNat = l) ∧
  (∀ pos bm, pos < 256 → bm < 256 → ∃ w, assemble (.wrseg pos bm) = some [⟨0, .write 0 w⟩] ∧
    opcOf w = 0x03 ∧ bits23to16 w = 0 ∧ (bits15to8 w).toNat = pos ∧ (bits7to0 w).toNat = bm) ∧
  (∀ idx dot, idx < 256 → dot < 2 → ∃ e i, assemble (.enc idx dot) = some [⟨0, .encode e i⟩] ∧
    i.toNat = idx ∧ (e = true ↔ dot = 1)) ∧
  (assemble .rdstat = some [⟨0, .read 1⟩] ∧ assemble .rdfault = some [⟨0, .read 2⟩] ∧ assemble .rdcfg = some [⟨0, .read 3⟩]) ∧
  (∀ v, v < 2 ^ 32 → ∃ w : Word, assemble (.word v) = some [⟨0, .write 0 w⟩] ∧ w.toNat = v) ∧
  (∀ pos idx dot, pos < 256 → idx < 256 → dot < 2 → ∃ e i w,
    assemble (.wrglyph pos idx dot) = some [⟨0, .encode e i⟩, ⟨0, .write 0 w⟩] ∧ i.toNat = idx ∧ (e = true ↔ dot = 1) ∧
      opcOf w = 0x03 ∧ bits23to16 w = 0 ∧ (bits15to8 w).toNat = pos ∧ bits7to0 w = encodeGlyph hw e i) ∧
  (∀ pos, pos < 256 → ∃ w, assemble (.blank pos) = some [⟨0, .write 0 w⟩] ∧
    opcOf w = 0x03 ∧ bits23to16 w = 0 ∧ (bits15to8 w).toNat = pos ∧ bits7to0 w = 0x00) ∧
  assemble .wait = some [⟨0, .poll⟩] ∧
  (∀ clk dio, 256 ≤ clk ∨ 256 ≤ dio → assemble (.init clk dio) = none) ∧
  (∀ l, 256 ≤ l → assemble (.setbri l) = none) ∧
  (∀ pos bm, 256 ≤ pos ∨ 256 ≤ bm → assemble (.wrseg pos bm) = none) ∧
  (∀ idx dot, 256 ≤ idx ∨ 2 ≤ dot → assemble (.enc idx dot) = none) ∧
  (∀ v, 2 ^ 32 ≤ v → assemble (.word v) = none) ∧
  (∀ pos idx dot, 256 ≤ pos ∨ 256 ≤ idx ∨ 2 ≤ dot → assemble (.wrglyph pos idx dot) = none) ∧
  (∀ pos, 256 ≤ pos → assemble (.blank pos) = none)

/-! ## What holds of every step -/

/-- R66, R77: a step leaves the trace, or adds the one action at SEQ_IDX of the running sequence, when none was outstanding. -/
def Obligations.TraceGrowsInOrder : Prop :=
  ∀ s t : State, step s = .next t →
    (t.trace = s.trace ∧ (t.outstanding = s.outstanding ∨ t.outstanding = none)) ∨
      (s.fsm = .busy ∧ s.outstanding = none ∧ ∃ a, (curSeq s)[s.seqIdx.toNat]? = some a ∧ t.trace = s.trace ++ [a] ∧
        t.outstanding = some a)

/-- R23: the transitions of FSM. -/
def Obligations.FsmTransitions : Prop :=
  ∀ s t : State, step s = .next t →
    t.fsm = s.fsm ∨
    ((s.fsm = .uninit ∨ s.fsm = .idle) ∧ t.fsm = .busy ∧ t.seqIdx = 0) ∨
    (s.fsm = .busy ∧ t.fsm = .idle ∧ s.seqIdx.toNat + 1 = (curSeq s).length) ∨
    (s.fsm ≠ .fault ∧ t.fsm = .fault ∧ t.faultCause ≠ .noFault) ∨
    (t.fsm = .uninit ∧ dueEvent s = some .reset)

/-- R24: SEQ_IDX stays, advances by exactly 1 when an action completes, or returns to 0 at completion, at the acceptance of a command or
at reset; it never wraps. -/
def Obligations.SeqIdxAdvances : Prop :=
  ∀ s t : State, s.Inv → step s = .next t →
    t.seqIdx = s.seqIdx ∨
    (s.fsm = .busy ∧ t.fsm = .busy ∧ t.seqIdx.toNat = s.seqIdx.toNat + 1 ∧ t.seqIdx.toNat < (curSeq t).length) ∨
    (t.seqIdx = 0 ∧ (t.fsm = .idle ∨ t.fsm = .busy ∧ s.fsm ≠ .busy ∨ dueEvent s = some .reset))

/-- R126, R127: while a command runs, its operands, the pins' identifiers and the brightness do not change, unless a reset comes; so the
running sequence is the one that was accepted. -/
def Obligations.OperandsStableInBusy : Prop :=
  ∀ s t : State, s.fsm = .busy → dueEvent s ≠ some .reset → step s = .next t →
    t.op = s.op ∧ t.clkPin = s.clkPin ∧ t.dioPin = s.dioPin ∧ t.brightness = s.brightness ∧ t.position = s.position ∧
      t.bitmap = s.bitmap ∧ curSeq t = curSeq s

/-- R33, R66: a step leaves every pin but CLK_PIN and DIO_PIN, unless another agent touches it. -/
def Obligations.OtherPinsUntouched : Prop :=
  ∀ (s t : State) (p : PinId), s.Inv → step s = .next t → p ≠ s.clkPin → p ≠ s.dioPin →
    (∀ w, dueEvent s ≠ some (.pinWrite p w)) → dirOf p t = dirOf p s ∧ latchOf p t = latchOf p s

/-- The invariants hold at reset. -/
def Obligations.ResetMeetsInvariants : Prop :=
  State.reset.Inv ∧ State.reset.WireInv

/-- R23, R24, R26, R29, R33, R66, R129, R200, R201, R202: every step keeps the machine's invariant. -/
def Obligations.StepKeepsInv : Prop :=
  ∀ s t : State, s.Inv → step s = .next t → t.Inv

/-- R37 made inductive: with no other agent on a pin, every step keeps the wires' invariant; so in IDLE both lines are outputs at 1. -/
def Obligations.StepKeepsWireInv : Prop :=
  ∀ s t : State, s.Inv → s.WireInv → NoOtherAgent s → step s = .next t → t.WireInv

/-- R203: what FAULT_INFO holds after a fault of the sequencer, as an invariant of every step: the opcode, zeros and the index of the
failed action, which is 0 or 1 of INIT or one of the eight mode switches of a segment write. -/
def Obligations.StepKeepsFaultInfo : Prop :=
  let good := fun s : State =>
    (s.faultCause = .gpioInitFail → s.faultInfo = 0x01#8 ++ 0x0000#16 ++ s.seqIdx ∧ (s.seqIdx = 0 ∨ s.seqIdx = 1)) ∧
    (s.faultCause = .gpioRuntimeFail → s.faultInfo = 0x03#8 ++ 0x0000#16 ++ s.seqIdx ∧ s.seqIdx.toNat ∈ modeSwitches)
  good State.reset ∧ ∀ s t : State, s.Inv → good s → step s = .next t → good t

/-- A step never refuses, and from a state that meets the invariant it always goes on. -/
def Obligations.StepNeverStops : Prop :=
  (∀ (s : State) (r : Refusal), step s ≠ .refused r) ∧ ∀ s : State, s.Inv → ∃ t, step s = .next t

/-! ## Whole commands -/

/-- R121, R123, R151, R204, R37: an INIT that has been accepted, with nothing else moving, has after 12 moves either emitted INIT_SEQ and
ended in IDLE with both lines outputs at 1, or stopped in FAULT at index 0 or 1 with what it had emitted (CLK an output after a failure at
1); with two `ok` responses it is
the first. -/
def Obligations.InitRun : Prop :=
  ∀ s : State, Quiet s → s.fsm = .busy → s.op = .init → s.seqIdx = 0 → s.outstanding = none → s.clkPin ≠ s.dioPin →
    ∃ t, Host.Core.run core 12 s = .next t ∧ t.clkPin = s.clkPin ∧ t.dioPin = s.dioPin ∧ t.brightness = s.brightness ∧
      t.outstanding = none ∧
      ((t.fsm = .idle ∧ t.seqIdx = 0 ∧ t.faultCause = s.faultCause ∧ t.trace = s.trace ++ initSeq s.clkPin s.dioPin ∧
          wiresOf t = idleHigh) ∨
        (t.fsm = .fault ∧ t.faultCause = .gpioInitFail ∧ t.seqIdx.toNat ≤ 1 ∧ (t.seqIdx = 1 → dirOf s.clkPin t = .out) ∧
          t.trace = s.trace ++ (initSeq s.clkPin s.dioPin).take (t.seqIdx.toNat + 1))) ∧
      (∀ rest, s.cfgScript = .ok :: .ok :: rest → t.fsm = .idle)

/-- R121, R126, R163, R205: a segment write that has been accepted, with nothing else moving, has after 504 moves (252 actions, each
issued and answered) either emitted WRITE_SEQ and ended in IDLE, or stopped in FAULT at a mode switch with what it had emitted; with
eight `ok` responses it is the first, and ACK_LOG then holds the four samples inverted (R157). -/
def Obligations.SegmentWriteRun : Prop :=
  ∀ s : State, Quiet s → s.fsm = .busy → s.op = .write → s.seqIdx = 0 → s.outstanding = none →
    ∃ t, Host.Core.run core 504 s = .next t ∧ t.brightness = s.brightness ∧ t.position = s.position ∧ t.bitmap = s.bitmap ∧
      t.outstanding = none ∧
      ((t.fsm = .idle ∧ t.seqIdx = 0 ∧ t.faultCause = s.faultCause ∧
          t.trace = s.trace ++ writeSeq s.clkPin s.dioPin s.position s.bitmap s.brightness) ∨
        (t.fsm = .fault ∧ t.faultCause = .gpioRuntimeFail ∧ t.seqIdx.toNat ∈ modeSwitches ∧
          t.trace = s.trace ++ (writeSeq s.clkPin s.dioPin s.position s.bitmap s.brightness).take (t.seqIdx.toNat + 1))) ∧
      (∀ rest, s.cfgScript = List.replicate 8 .ok ++ rest → t.fsm = .idle) ∧
      (∀ rest b0 b1 b2 b3 more, s.cfgScript = List.replicate 8 .ok ++ rest → s.levelScript = b0 :: b1 :: b2 :: b3 :: more →
        t.ackLog = BitVec.ofBool (!b3) ++ BitVec.ofBool (!b2) ++ BitVec.ofBool (!b1) ++ BitVec.ofBool (!b0))

/-- R128: of two segment writes with the same position, bitmap, pins and brightness, whatever the pins, the responses and the levels
are, one emits a beginning of what the other emits; and two that complete emit the same actions. -/
def Obligations.SegmentWriteDeterministic : Prop :=
  ∀ s s' : State,
    Quiet s → s.fsm = .busy → s.op = .write → s.seqIdx = 0 → s.outstanding = none →
    Quiet s' → s'.fsm = .busy → s'.op = .write → s'.seqIdx = 0 → s'.outstanding = none →
    s'.clkPin = s.clkPin → s'.dioPin = s.dioPin → s'.position = s.position → s'.bitmap = s.bitmap →
    s'.brightness = s.brightness → s'.trace = s.trace →
    ∃ t t', Host.Core.run core 504 s = .next t ∧ Host.Core.run core 504 s' = .next t' ∧
      (t.trace <+: t'.trace ∨ t'.trace <+: t.trace) ∧ (t.fsm = .idle → t'.fsm = .idle → t'.trace = t.trace)

/-- R72, R129: with every action answered, a sequence comes to its end: from any state that meets the invariant, with nothing else to
move, the machine is out of BUSY after at most 504 moves, and the run is over unless it stands in UNINIT although the host has written a
legal INIT. Whether it has is noted by the write itself, whatever becomes of it, and kept for the run (log entry 30). -/
def Obligations.EveryRunEnds : Prop :=
  (∀ s : State, s.Inv → Quiet s → ∃ t, Host.Core.run core 504 s = .next t ∧ t.host = [] ∧ t.fsm ≠ .busy ∧
    (runOver t ↔ ¬(s.fsm = .uninit ∧ s.initWritten = true))) ∧
  ∀ s t : State, step s = .next t →
    (t.initWritten = true ↔ s.initWritten = true ∨
      (s.fsm ≠ .busy ∧ (dueEvent s = none ∨ dueEvent s = some .reset) ∧
        ∃ w rest c d, s.host = ⟨0, .write 0 w⟩ :: rest ∧ decode (.cmd w) = .ok (.init c d) ∧ c ≠ d))
end

