-- ==== Sys2Proof/Laws/Decode.lean ====
section
/-! SUPPORT. The fields of an encoded instruction (R92 to R97) and what they decode to. -/

namespace Sys2Proof

theorem append4_fields (a b c d : BitVec 8) :
    opcOf (a ++ b ++ c ++ d) = a ∧ bits23to16 (a ++ b ++ c ++ d) = b ∧ bits15to8 (a ++ b ++ c ++ d) = c ∧
      bits7to0 (a ++ b ++ c ++ d) = d := by
  refine ⟨?_, ?_, ?_, ?_⟩ <;>
  · apply BitVec.eq_of_getLsbD_eq
    intro i hi
    simp only [opcOf, bits23to16, bits15to8, bits7to0, BitVec.getLsbD_extractLsb', BitVec.getLsbD_append, hi, decide_true,
      Bool.true_and]
    split_ifs <;> first | omega | (congr 1; omega)

theorem append3_fields (a : BitVec 8) (b : BitVec 16) (d : BitVec 8) :
    opcOf (a ++ b ++ d) = a ∧ bits23to8 (a ++ b ++ d) = b ∧ bits7to0 (a ++ b ++ d) = d := by
  refine ⟨?_, ?_, ?_⟩ <;>
  · apply BitVec.eq_of_getLsbD_eq
    intro i hi
    simp only [opcOf, bits23to8, bits7to0, BitVec.getLsbD_extractLsb', BitVec.getLsbD_append, hi, decide_true,
      Bool.true_and]
    split_ifs <;> first | omega | (congr 1; omega)

/-- A word is its four bytes. -/
theorem word_bytes (w : Word) : opcOf w ++ bits23to16 w ++ bits15to8 w ++ bits7to0 w = w := by
  apply BitVec.eq_of_getLsbD_eq
  intro i hi
  simp only [opcOf, bits23to16, bits15to8, bits7to0, BitVec.getLsbD_extractLsb', BitVec.getLsbD_append]
  split_ifs <;> (try (rw [decide_eq_true (by omega)])) <;> simp only [Bool.true_and] <;> congr 1 <;> omega

/-- A word is OPC, its middle 16 bits and its low byte. -/
theorem word_parts (w : Word) : opcOf w ++ bits23to8 w ++ bits7to0 w = w := by
  apply BitVec.eq_of_getLsbD_eq
  intro i hi
  simp only [opcOf, bits23to8, bits7to0, BitVec.getLsbD_extractLsb', BitVec.getLsbD_append]
  split_ifs <;> (try (rw [decide_eq_true (by omega)])) <;> simp only [Bool.true_and] <;> congr 1 <;> omega

theorem addrByte_fields : ∀ pos : BitVec 3,
    (addrByte pos).extractLsb' 3 5 = 0b11000#5 ∧ (addrByte pos).extractLsb' 0 3 = pos := by decide

theorem ctrlByte_fields : ∀ bri : BitVec 3,
    (ctrlByte bri).extractLsb' 3 5 = 0b10001#5 ∧ (ctrlByte bri).extractLsb' 0 3 = bri := by decide

theorem decodeEnc_append (dot : Bool) (idx : Byte) : decodeEnc (BitVec.ofBool dot ++ idx) = .encode dot idx := by
  unfold decodeEnc
  congr 1
  · cases dot <;> simp only [BitVec.getLsbD_append] <;> rfl
  · apply BitVec.eq_of_getLsbD_eq
    intro i hi
    simp only [BitVec.getLsbD_extractLsb', BitVec.getLsbD_append, hi, decide_true, Bool.true_and]
    split_ifs <;> first | omega | (congr 1; omega)

/-- The instruction that a byte of the running segment write is. -/
def byteInstrOf (role : ByteRole) (pos : BitVec 3) (bm : Byte) (bri : BitVec 3) : Instr :=
  match role with
  | .dataCmd => .wireDataCmd
  | .addrCmd => .wireAddrCmd pos
  | .data => .wireData bm
  | .dispCtrl => .wireDispCtrl bri

/-- The byte in each place decodes to the instruction of that place. -/
theorem decodeWire_wireByte (role : ByteRole) (pos : BitVec 3) (bm : Byte) (bri : BitVec 3) :
    decodeWire role (Machine.wireByte role pos bm bri) = .ok (byteInstrOf role pos bm bri) := by
  cases role <;> simp [decodeWire, Machine.wireByte, byteInstrOf, addrByte_fields, ctrlByte_fields]

end Sys2Proof
end

