-- ==== Sys2Proof/Laws/State.lean ====
section
/-! SUPPORT. What every update of the state does to every field, one lemma a field, so that no later proof unfolds a record update. -/

namespace Sys2Proof.Machine

/-! ### raiseFault -/

@[simp] theorem raiseFault_fsm (c : FaultCause) (info : Word) (s : State) : (raiseFault c info s).fsm = .fault := rfl
@[simp] theorem raiseFault_op (c : FaultCause) (info : Word) (s : State) : (raiseFault c info s).op = s.op := rfl
@[simp] theorem raiseFault_seqIdx (c : FaultCause) (info : Word) (s : State) : (raiseFault c info s).seqIdx = s.seqIdx := rfl
@[simp] theorem raiseFault_clkPin (c : FaultCause) (info : Word) (s : State) : (raiseFault c info s).clkPin = s.clkPin := rfl
@[simp] theorem raiseFault_dioPin (c : FaultCause) (info : Word) (s : State) : (raiseFault c info s).dioPin = s.dioPin := rfl
@[simp] theorem raiseFault_brightness (c : FaultCause) (info : Word) (s : State) : (raiseFault c info s).brightness = s.brightness := rfl
@[simp] theorem raiseFault_position (c : FaultCause) (info : Word) (s : State) : (raiseFault c info s).position = s.position := rfl
@[simp] theorem raiseFault_bitmap (c : FaultCause) (info : Word) (s : State) : (raiseFault c info s).bitmap = s.bitmap := rfl
@[simp] theorem raiseFault_ackLog (c : FaultCause) (info : Word) (s : State) : (raiseFault c info s).ackLog = s.ackLog := rfl
@[simp] theorem raiseFault_faultCause (c : FaultCause) (info : Word) (s : State) : (raiseFault c info s).faultCause = c := rfl
@[simp] theorem raiseFault_faultInfo (c : FaultCause) (info : Word) (s : State) : (raiseFault c info s).faultInfo = info := rfl
@[simp] theorem raiseFault_outstanding (c : FaultCause) (info : Word) (s : State) : (raiseFault c info s).outstanding = s.outstanding := rfl
@[simp] theorem raiseFault_hung (c : FaultCause) (info : Word) (s : State) : (raiseFault c info s).hung = s.hung := rfl
@[simp] theorem raiseFault_dirs (c : FaultCause) (info : Word) (s : State) : (raiseFault c info s).dirs = s.dirs := rfl
@[simp] theorem raiseFault_latches (c : FaultCause) (info : Word) (s : State) : (raiseFault c info s).latches = s.latches := rfl
@[simp] theorem raiseFault_encIdx (c : FaultCause) (info : Word) (s : State) : (raiseFault c info s).encIdx = s.encIdx := rfl
@[simp] theorem raiseFault_encDot (c : FaultCause) (info : Word) (s : State) : (raiseFault c info s).encDot = s.encDot := rfl
@[simp] theorem raiseFault_trace (c : FaultCause) (info : Word) (s : State) : (raiseFault c info s).trace = s.trace := rfl
@[simp] theorem raiseFault_host (c : FaultCause) (info : Word) (s : State) : (raiseFault c info s).host = s.host := rfl
@[simp] theorem raiseFault_rdData (c : FaultCause) (info : Word) (s : State) : (raiseFault c info s).rdData = s.rdData := rfl
@[simp] theorem raiseFault_initWritten (c : FaultCause) (info : Word) (s : State) : (raiseFault c info s).initWritten = s.initWritten := rfl
@[simp] theorem raiseFault_events (c : FaultCause) (info : Word) (s : State) : (raiseFault c info s).events = s.events := rfl
@[simp] theorem raiseFault_cfgScript (c : FaultCause) (info : Word) (s : State) : (raiseFault c info s).cfgScript = s.cfgScript := rfl
@[simp] theorem raiseFault_levelScript (c : FaultCause) (info : Word) (s : State) : (raiseFault c info s).levelScript = s.levelScript := rfl
@[simp] theorem raiseFault_cfgDraws (c : FaultCause) (info : Word) (s : State) : (raiseFault c info s).cfgDraws = s.cfgDraws := rfl
@[simp] theorem raiseFault_levelDraws (c : FaultCause) (info : Word) (s : State) : (raiseFault c info s).levelDraws = s.levelDraws := rfl

/-! ### engineReset -/

@[simp] theorem engineReset_fsm (s : State) : (engineReset s).fsm = .uninit := rfl
@[simp] theorem engineReset_op (s : State) : (engineReset s).op = .init := rfl
@[simp] theorem engineReset_seqIdx (s : State) : (engineReset s).seqIdx = 0 := rfl
@[simp] theorem engineReset_clkPin (s : State) : (engineReset s).clkPin = 0 := rfl
@[simp] theorem engineReset_dioPin (s : State) : (engineReset s).dioPin = 0 := rfl
@[simp] theorem engineReset_brightness (s : State) : (engineReset s).brightness = hw.defaultBrightness := rfl
@[simp] theorem engineReset_position (s : State) : (engineReset s).position = 0 := rfl
@[simp] theorem engineReset_bitmap (s : State) : (engineReset s).bitmap = 0 := rfl
@[simp] theorem engineReset_ackLog (s : State) : (engineReset s).ackLog = 0 := rfl
@[simp] theorem engineReset_faultCause (s : State) : (engineReset s).faultCause = .noFault := rfl
@[simp] theorem engineReset_faultInfo (s : State) : (engineReset s).faultInfo = 0 := rfl
@[simp] theorem engineReset_outstanding (s : State) : (engineReset s).outstanding = none := rfl
@[simp] theorem engineReset_hung (s : State) : (engineReset s).hung = false := rfl
@[simp] theorem engineReset_dirs (s : State) : (engineReset s).dirs = s.dirs := rfl
@[simp] theorem engineReset_latches (s : State) : (engineReset s).latches = s.latches := rfl
@[simp] theorem engineReset_encIdx (s : State) : (engineReset s).encIdx = s.encIdx := rfl
@[simp] theorem engineReset_encDot (s : State) : (engineReset s).encDot = s.encDot := rfl
@[simp] theorem engineReset_trace (s : State) : (engineReset s).trace = s.trace := rfl
@[simp] theorem engineReset_host (s : State) : (engineReset s).host = s.host := rfl
@[simp] theorem engineReset_rdData (s : State) : (engineReset s).rdData = s.rdData := rfl
@[simp] theorem engineReset_initWritten (s : State) : (engineReset s).initWritten = s.initWritten := rfl
@[simp] theorem engineReset_events (s : State) : (engineReset s).events = s.events := rfl
@[simp] theorem engineReset_cfgScript (s : State) : (engineReset s).cfgScript = s.cfgScript := rfl
@[simp] theorem engineReset_levelScript (s : State) : (engineReset s).levelScript = s.levelScript := rfl
@[simp] theorem engineReset_cfgDraws (s : State) : (engineReset s).cfgDraws = s.cfgDraws := rfl
@[simp] theorem engineReset_levelDraws (s : State) : (engineReset s).levelDraws = s.levelDraws := rfl

/-! ### setDir -/

@[simp] theorem setDir_fsm (p : PinId) (d : Dir) (s : State) : (setDir p d s).fsm = s.fsm := rfl
@[simp] theorem setDir_op (p : PinId) (d : Dir) (s : State) : (setDir p d s).op = s.op := rfl
@[simp] theorem setDir_seqIdx (p : PinId) (d : Dir) (s : State) : (setDir p d s).seqIdx = s.seqIdx := rfl
@[simp] theorem setDir_clkPin (p : PinId) (d : Dir) (s : State) : (setDir p d s).clkPin = s.clkPin := rfl
@[simp] theorem setDir_dioPin (p : PinId) (d : Dir) (s : State) : (setDir p d s).dioPin = s.dioPin := rfl
@[simp] theorem setDir_brightness (p : PinId) (d : Dir) (s : State) : (setDir p d s).brightness = s.brightness := rfl
@[simp] theorem setDir_position (p : PinId) (d : Dir) (s : State) : (setDir p d s).position = s.position := rfl
@[simp] theorem setDir_bitmap (p : PinId) (d : Dir) (s : State) : (setDir p d s).bitmap = s.bitmap := rfl
@[simp] theorem setDir_ackLog (p : PinId) (d : Dir) (s : State) : (setDir p d s).ackLog = s.ackLog := rfl
@[simp] theorem setDir_faultCause (p : PinId) (d : Dir) (s : State) : (setDir p d s).faultCause = s.faultCause := rfl
@[simp] theorem setDir_faultInfo (p : PinId) (d : Dir) (s : State) : (setDir p d s).faultInfo = s.faultInfo := rfl
@[simp] theorem setDir_outstanding (p : PinId) (d : Dir) (s : State) : (setDir p d s).outstanding = s.outstanding := rfl
@[simp] theorem setDir_hung (p : PinId) (d : Dir) (s : State) : (setDir p d s).hung = s.hung := rfl
@[simp] theorem setDir_dirs (p : PinId) (d : Dir) (s : State) : (setDir p d s).dirs = pinInsert p.toNat d s.dirs := rfl
@[simp] theorem setDir_latches (p : PinId) (d : Dir) (s : State) : (setDir p d s).latches = s.latches := rfl
@[simp] theorem setDir_encIdx (p : PinId) (d : Dir) (s : State) : (setDir p d s).encIdx = s.encIdx := rfl
@[simp] theorem setDir_encDot (p : PinId) (d : Dir) (s : State) : (setDir p d s).encDot = s.encDot := rfl
@[simp] theorem setDir_trace (p : PinId) (d : Dir) (s : State) : (setDir p d s).trace = s.trace := rfl
@[simp] theorem setDir_host (p : PinId) (d : Dir) (s : State) : (setDir p d s).host = s.host := rfl
@[simp] theorem setDir_rdData (p : PinId) (d : Dir) (s : State) : (setDir p d s).rdData = s.rdData := rfl
@[simp] theorem setDir_initWritten (p : PinId) (d : Dir) (s : State) : (setDir p d s).initWritten = s.initWritten := rfl
@[simp] theorem setDir_events (p : PinId) (d : Dir) (s : State) : (setDir p d s).events = s.events := rfl
@[simp] theorem setDir_cfgScript (p : PinId) (d : Dir) (s : State) : (setDir p d s).cfgScript = s.cfgScript := rfl
@[simp] theorem setDir_levelScript (p : PinId) (d : Dir) (s : State) : (setDir p d s).levelScript = s.levelScript := rfl
@[simp] theorem setDir_cfgDraws (p : PinId) (d : Dir) (s : State) : (setDir p d s).cfgDraws = s.cfgDraws := rfl
@[simp] theorem setDir_levelDraws (p : PinId) (d : Dir) (s : State) : (setDir p d s).levelDraws = s.levelDraws := rfl

/-! ### setLatch -/

@[simp] theorem setLatch_fsm (p : PinId) (l : Latch) (s : State) : (setLatch p l s).fsm = s.fsm := rfl
@[simp] theorem setLatch_op (p : PinId) (l : Latch) (s : State) : (setLatch p l s).op = s.op := rfl
@[simp] theorem setLatch_seqIdx (p : PinId) (l : Latch) (s : State) : (setLatch p l s).seqIdx = s.seqIdx := rfl
@[simp] theorem setLatch_clkPin (p : PinId) (l : Latch) (s : State) : (setLatch p l s).clkPin = s.clkPin := rfl
@[simp] theorem setLatch_dioPin (p : PinId) (l : Latch) (s : State) : (setLatch p l s).dioPin = s.dioPin := rfl
@[simp] theorem setLatch_brightness (p : PinId) (l : Latch) (s : State) : (setLatch p l s).brightness = s.brightness := rfl
@[simp] theorem setLatch_position (p : PinId) (l : Latch) (s : State) : (setLatch p l s).position = s.position := rfl
@[simp] theorem setLatch_bitmap (p : PinId) (l : Latch) (s : State) : (setLatch p l s).bitmap = s.bitmap := rfl
@[simp] theorem setLatch_ackLog (p : PinId) (l : Latch) (s : State) : (setLatch p l s).ackLog = s.ackLog := rfl
@[simp] theorem setLatch_faultCause (p : PinId) (l : Latch) (s : State) : (setLatch p l s).faultCause = s.faultCause := rfl
@[simp] theorem setLatch_faultInfo (p : PinId) (l : Latch) (s : State) : (setLatch p l s).faultInfo = s.faultInfo := rfl
@[simp] theorem setLatch_outstanding (p : PinId) (l : Latch) (s : State) : (setLatch p l s).outstanding = s.outstanding := rfl
@[simp] theorem setLatch_hung (p : PinId) (l : Latch) (s : State) : (setLatch p l s).hung = s.hung := rfl
@[simp] theorem setLatch_dirs (p : PinId) (l : Latch) (s : State) : (setLatch p l s).dirs = s.dirs := rfl
@[simp] theorem setLatch_latches (p : PinId) (l : Latch) (s : State) : (setLatch p l s).latches = pinInsert p.toNat l s.latches := rfl
@[simp] theorem setLatch_encIdx (p : PinId) (l : Latch) (s : State) : (setLatch p l s).encIdx = s.encIdx := rfl
@[simp] theorem setLatch_encDot (p : PinId) (l : Latch) (s : State) : (setLatch p l s).encDot = s.encDot := rfl
@[simp] theorem setLatch_trace (p : PinId) (l : Latch) (s : State) : (setLatch p l s).trace = s.trace := rfl
@[simp] theorem setLatch_host (p : PinId) (l : Latch) (s : State) : (setLatch p l s).host = s.host := rfl
@[simp] theorem setLatch_rdData (p : PinId) (l : Latch) (s : State) : (setLatch p l s).rdData = s.rdData := rfl
@[simp] theorem setLatch_initWritten (p : PinId) (l : Latch) (s : State) : (setLatch p l s).initWritten = s.initWritten := rfl
@[simp] theorem setLatch_events (p : PinId) (l : Latch) (s : State) : (setLatch p l s).events = s.events := rfl
@[simp] theorem setLatch_cfgScript (p : PinId) (l : Latch) (s : State) : (setLatch p l s).cfgScript = s.cfgScript := rfl
@[simp] theorem setLatch_levelScript (p : PinId) (l : Latch) (s : State) : (setLatch p l s).levelScript = s.levelScript := rfl
@[simp] theorem setLatch_cfgDraws (p : PinId) (l : Latch) (s : State) : (setLatch p l s).cfgDraws = s.cfgDraws := rfl
@[simp] theorem setLatch_levelDraws (p : PinId) (l : Latch) (s : State) : (setLatch p l s).levelDraws = s.levelDraws := rfl

/-! ### consumeCfg -/

@[simp] theorem consumeCfg_fsm (s : State) : (consumeCfg s).fsm = s.fsm := rfl
@[simp] theorem consumeCfg_op (s : State) : (consumeCfg s).op = s.op := rfl
@[simp] theorem consumeCfg_seqIdx (s : State) : (consumeCfg s).seqIdx = s.seqIdx := rfl
@[simp] theorem consumeCfg_clkPin (s : State) : (consumeCfg s).clkPin = s.clkPin := rfl
@[simp] theorem consumeCfg_dioPin (s : State) : (consumeCfg s).dioPin = s.dioPin := rfl
@[simp] theorem consumeCfg_brightness (s : State) : (consumeCfg s).brightness = s.brightness := rfl
@[simp] theorem consumeCfg_position (s : State) : (consumeCfg s).position = s.position := rfl
@[simp] theorem consumeCfg_bitmap (s : State) : (consumeCfg s).bitmap = s.bitmap := rfl
@[simp] theorem consumeCfg_ackLog (s : State) : (consumeCfg s).ackLog = s.ackLog := rfl
@[simp] theorem consumeCfg_faultCause (s : State) : (consumeCfg s).faultCause = s.faultCause := rfl
@[simp] theorem consumeCfg_faultInfo (s : State) : (consumeCfg s).faultInfo = s.faultInfo := rfl
@[simp] theorem consumeCfg_outstanding (s : State) : (consumeCfg s).outstanding = s.outstanding := rfl
@[simp] theorem consumeCfg_hung (s : State) : (consumeCfg s).hung = s.hung := rfl
@[simp] theorem consumeCfg_dirs (s : State) : (consumeCfg s).dirs = s.dirs := rfl
@[simp] theorem consumeCfg_latches (s : State) : (consumeCfg s).latches = s.latches := rfl
@[simp] theorem consumeCfg_encIdx (s : State) : (consumeCfg s).encIdx = s.encIdx := rfl
@[simp] theorem consumeCfg_encDot (s : State) : (consumeCfg s).encDot = s.encDot := rfl
@[simp] theorem consumeCfg_trace (s : State) : (consumeCfg s).trace = s.trace := rfl
@[simp] theorem consumeCfg_host (s : State) : (consumeCfg s).host = s.host := rfl
@[simp] theorem consumeCfg_rdData (s : State) : (consumeCfg s).rdData = s.rdData := rfl
@[simp] theorem consumeCfg_initWritten (s : State) : (consumeCfg s).initWritten = s.initWritten := rfl
@[simp] theorem consumeCfg_events (s : State) : (consumeCfg s).events = s.events := rfl
@[simp] theorem consumeCfg_cfgScript (s : State) : (consumeCfg s).cfgScript = s.cfgScript.tail := rfl
@[simp] theorem consumeCfg_levelScript (s : State) : (consumeCfg s).levelScript = s.levelScript := rfl
@[simp] theorem consumeCfg_cfgDraws (s : State) : (consumeCfg s).cfgDraws = if s.cfgScript = [] then s.cfgDraws + 1 else s.cfgDraws := rfl
@[simp] theorem consumeCfg_levelDraws (s : State) : (consumeCfg s).levelDraws = s.levelDraws := rfl

/-! ### consumeLevel -/

@[simp] theorem consumeLevel_fsm (s : State) : (consumeLevel s).fsm = s.fsm := rfl
@[simp] theorem consumeLevel_op (s : State) : (consumeLevel s).op = s.op := rfl
@[simp] theorem consumeLevel_seqIdx (s : State) : (consumeLevel s).seqIdx = s.seqIdx := rfl
@[simp] theorem consumeLevel_clkPin (s : State) : (consumeLevel s).clkPin = s.clkPin := rfl
@[simp] theorem consumeLevel_dioPin (s : State) : (consumeLevel s).dioPin = s.dioPin := rfl
@[simp] theorem consumeLevel_brightness (s : State) : (consumeLevel s).brightness = s.brightness := rfl
@[simp] theorem consumeLevel_position (s : State) : (consumeLevel s).position = s.position := rfl
@[simp] theorem consumeLevel_bitmap (s : State) : (consumeLevel s).bitmap = s.bitmap := rfl
@[simp] theorem consumeLevel_ackLog (s : State) : (consumeLevel s).ackLog = s.ackLog := rfl
@[simp] theorem consumeLevel_faultCause (s : State) : (consumeLevel s).faultCause = s.faultCause := rfl
@[simp] theorem consumeLevel_faultInfo (s : State) : (consumeLevel s).faultInfo = s.faultInfo := rfl
@[simp] theorem consumeLevel_outstanding (s : State) : (consumeLevel s).outstanding = s.outstanding := rfl
@[simp] theorem consumeLevel_hung (s : State) : (consumeLevel s).hung = s.hung := rfl
@[simp] theorem consumeLevel_dirs (s : State) : (consumeLevel s).dirs = s.dirs := rfl
@[simp] theorem consumeLevel_latches (s : State) : (consumeLevel s).latches = s.latches := rfl
@[simp] theorem consumeLevel_encIdx (s : State) : (consumeLevel s).encIdx = s.encIdx := rfl
@[simp] theorem consumeLevel_encDot (s : State) : (consumeLevel s).encDot = s.encDot := rfl
@[simp] theorem consumeLevel_trace (s : State) : (consumeLevel s).trace = s.trace := rfl
@[simp] theorem consumeLevel_host (s : State) : (consumeLevel s).host = s.host := rfl
@[simp] theorem consumeLevel_rdData (s : State) : (consumeLevel s).rdData = s.rdData := rfl
@[simp] theorem consumeLevel_initWritten (s : State) : (consumeLevel s).initWritten = s.initWritten := rfl
@[simp] theorem consumeLevel_events (s : State) : (consumeLevel s).events = s.events := rfl
@[simp] theorem consumeLevel_cfgScript (s : State) : (consumeLevel s).cfgScript = s.cfgScript := rfl
@[simp] theorem consumeLevel_levelScript (s : State) : (consumeLevel s).levelScript = s.levelScript.tail := rfl
@[simp] theorem consumeLevel_cfgDraws (s : State) : (consumeLevel s).cfgDraws = s.cfgDraws := rfl
@[simp] theorem consumeLevel_levelDraws (s : State) : (consumeLevel s).levelDraws = if s.levelScript = [] then s.levelDraws + 1 else s.levelDraws := rfl

/-! ### issue -/

@[simp] theorem issue_fsm (a : Action) (s : State) : (issue a s).fsm = s.fsm := rfl
@[simp] theorem issue_op (a : Action) (s : State) : (issue a s).op = s.op := rfl
@[simp] theorem issue_seqIdx (a : Action) (s : State) : (issue a s).seqIdx = s.seqIdx := rfl
@[simp] theorem issue_clkPin (a : Action) (s : State) : (issue a s).clkPin = s.clkPin := rfl
@[simp] theorem issue_dioPin (a : Action) (s : State) : (issue a s).dioPin = s.dioPin := rfl
@[simp] theorem issue_brightness (a : Action) (s : State) : (issue a s).brightness = s.brightness := rfl
@[simp] theorem issue_position (a : Action) (s : State) : (issue a s).position = s.position := rfl
@[simp] theorem issue_bitmap (a : Action) (s : State) : (issue a s).bitmap = s.bitmap := rfl
@[simp] theorem issue_ackLog (a : Action) (s : State) : (issue a s).ackLog = s.ackLog := rfl
@[simp] theorem issue_faultCause (a : Action) (s : State) : (issue a s).faultCause = s.faultCause := rfl
@[simp] theorem issue_faultInfo (a : Action) (s : State) : (issue a s).faultInfo = s.faultInfo := rfl
@[simp] theorem issue_outstanding (a : Action) (s : State) : (issue a s).outstanding = some a := rfl
@[simp] theorem issue_hung (a : Action) (s : State) : (issue a s).hung = s.hung := rfl
@[simp] theorem issue_dirs (a : Action) (s : State) : (issue a s).dirs = s.dirs := rfl
@[simp] theorem issue_latches (a : Action) (s : State) : (issue a s).latches = s.latches := rfl
@[simp] theorem issue_encIdx (a : Action) (s : State) : (issue a s).encIdx = s.encIdx := rfl
@[simp] theorem issue_encDot (a : Action) (s : State) : (issue a s).encDot = s.encDot := rfl
@[simp] theorem issue_trace (a : Action) (s : State) : (issue a s).trace = s.trace ++ [a] := rfl
@[simp] theorem issue_host (a : Action) (s : State) : (issue a s).host = s.host := rfl
@[simp] theorem issue_rdData (a : Action) (s : State) : (issue a s).rdData = s.rdData := rfl
@[simp] theorem issue_initWritten (a : Action) (s : State) : (issue a s).initWritten = s.initWritten := rfl
@[simp] theorem issue_events (a : Action) (s : State) : (issue a s).events = s.events := rfl
@[simp] theorem issue_cfgScript (a : Action) (s : State) : (issue a s).cfgScript = s.cfgScript := rfl
@[simp] theorem issue_levelScript (a : Action) (s : State) : (issue a s).levelScript = s.levelScript := rfl
@[simp] theorem issue_cfgDraws (a : Action) (s : State) : (issue a s).cfgDraws = s.cfgDraws := rfl
@[simp] theorem issue_levelDraws (a : Action) (s : State) : (issue a s).levelDraws = s.levelDraws := rfl

/-! ### hang -/

@[simp] theorem hang_fsm (s : State) : (hang s).fsm = s.fsm := rfl
@[simp] theorem hang_op (s : State) : (hang s).op = s.op := rfl
@[simp] theorem hang_seqIdx (s : State) : (hang s).seqIdx = s.seqIdx := rfl
@[simp] theorem hang_clkPin (s : State) : (hang s).clkPin = s.clkPin := rfl
@[simp] theorem hang_dioPin (s : State) : (hang s).dioPin = s.dioPin := rfl
@[simp] theorem hang_brightness (s : State) : (hang s).brightness = s.brightness := rfl
@[simp] theorem hang_position (s : State) : (hang s).position = s.position := rfl
@[simp] theorem hang_bitmap (s : State) : (hang s).bitmap = s.bitmap := rfl
@[simp] theorem hang_ackLog (s : State) : (hang s).ackLog = s.ackLog := rfl
@[simp] theorem hang_faultCause (s : State) : (hang s).faultCause = s.faultCause := rfl
@[simp] theorem hang_faultInfo (s : State) : (hang s).faultInfo = s.faultInfo := rfl
@[simp] theorem hang_outstanding (s : State) : (hang s).outstanding = s.outstanding := rfl
@[simp] theorem hang_hung (s : State) : (hang s).hung = true := rfl
@[simp] theorem hang_dirs (s : State) : (hang s).dirs = s.dirs := rfl
@[simp] theorem hang_latches (s : State) : (hang s).latches = s.latches := rfl
@[simp] theorem hang_encIdx (s : State) : (hang s).encIdx = s.encIdx := rfl
@[simp] theorem hang_encDot (s : State) : (hang s).encDot = s.encDot := rfl
@[simp] theorem hang_trace (s : State) : (hang s).trace = s.trace := rfl
@[simp] theorem hang_host (s : State) : (hang s).host = s.host := rfl
@[simp] theorem hang_rdData (s : State) : (hang s).rdData = s.rdData := rfl
@[simp] theorem hang_initWritten (s : State) : (hang s).initWritten = s.initWritten := rfl
@[simp] theorem hang_events (s : State) : (hang s).events = s.events := rfl
@[simp] theorem hang_cfgScript (s : State) : (hang s).cfgScript = s.cfgScript := rfl
@[simp] theorem hang_levelScript (s : State) : (hang s).levelScript = s.levelScript := rfl
@[simp] theorem hang_cfgDraws (s : State) : (hang s).cfgDraws = s.cfgDraws := rfl
@[simp] theorem hang_levelDraws (s : State) : (hang s).levelDraws = s.levelDraws := rfl

/-! ### received -/

@[simp] theorem received_fsm (s : State) : (received s).fsm = s.fsm := rfl
@[simp] theorem received_op (s : State) : (received s).op = s.op := rfl
@[simp] theorem received_seqIdx (s : State) : (received s).seqIdx = s.seqIdx := rfl
@[simp] theorem received_clkPin (s : State) : (received s).clkPin = s.clkPin := rfl
@[simp] theorem received_dioPin (s : State) : (received s).dioPin = s.dioPin := rfl
@[simp] theorem received_brightness (s : State) : (received s).brightness = s.brightness := rfl
@[simp] theorem received_position (s : State) : (received s).position = s.position := rfl
@[simp] theorem received_bitmap (s : State) : (received s).bitmap = s.bitmap := rfl
@[simp] theorem received_ackLog (s : State) : (received s).ackLog = s.ackLog := rfl
@[simp] theorem received_faultCause (s : State) : (received s).faultCause = s.faultCause := rfl
@[simp] theorem received_faultInfo (s : State) : (received s).faultInfo = s.faultInfo := rfl
@[simp] theorem received_outstanding (s : State) : (received s).outstanding = none := rfl
@[simp] theorem received_hung (s : State) : (received s).hung = s.hung := rfl
@[simp] theorem received_dirs (s : State) : (received s).dirs = s.dirs := rfl
@[simp] theorem received_latches (s : State) : (received s).latches = s.latches := rfl
@[simp] theorem received_encIdx (s : State) : (received s).encIdx = s.encIdx := rfl
@[simp] theorem received_encDot (s : State) : (received s).encDot = s.encDot := rfl
@[simp] theorem received_trace (s : State) : (received s).trace = s.trace := rfl
@[simp] theorem received_host (s : State) : (received s).host = s.host := rfl
@[simp] theorem received_rdData (s : State) : (received s).rdData = s.rdData := rfl
@[simp] theorem received_initWritten (s : State) : (received s).initWritten = s.initWritten := rfl
@[simp] theorem received_events (s : State) : (received s).events = s.events := rfl
@[simp] theorem received_cfgScript (s : State) : (received s).cfgScript = s.cfgScript := rfl
@[simp] theorem received_levelScript (s : State) : (received s).levelScript = s.levelScript := rfl
@[simp] theorem received_cfgDraws (s : State) : (received s).cfgDraws = s.cfgDraws := rfl
@[simp] theorem received_levelDraws (s : State) : (received s).levelDraws = s.levelDraws := rfl

/-! ### logAck -/

@[simp] theorem logAck_fsm (v : Bool) (s : State) : (logAck v s).fsm = s.fsm := rfl
@[simp] theorem logAck_op (v : Bool) (s : State) : (logAck v s).op = s.op := rfl
@[simp] theorem logAck_seqIdx (v : Bool) (s : State) : (logAck v s).seqIdx = s.seqIdx := rfl
@[simp] theorem logAck_clkPin (v : Bool) (s : State) : (logAck v s).clkPin = s.clkPin := rfl
@[simp] theorem logAck_dioPin (v : Bool) (s : State) : (logAck v s).dioPin = s.dioPin := rfl
@[simp] theorem logAck_brightness (v : Bool) (s : State) : (logAck v s).brightness = s.brightness := rfl
@[simp] theorem logAck_position (v : Bool) (s : State) : (logAck v s).position = s.position := rfl
@[simp] theorem logAck_bitmap (v : Bool) (s : State) : (logAck v s).bitmap = s.bitmap := rfl
@[simp] theorem logAck_ackLog (v : Bool) (s : State) : (logAck v s).ackLog = ackAfter s.seqIdx v s.ackLog := rfl
@[simp] theorem logAck_faultCause (v : Bool) (s : State) : (logAck v s).faultCause = s.faultCause := rfl
@[simp] theorem logAck_faultInfo (v : Bool) (s : State) : (logAck v s).faultInfo = s.faultInfo := rfl
@[simp] theorem logAck_outstanding (v : Bool) (s : State) : (logAck v s).outstanding = s.outstanding := rfl
@[simp] theorem logAck_hung (v : Bool) (s : State) : (logAck v s).hung = s.hung := rfl
@[simp] theorem logAck_dirs (v : Bool) (s : State) : (logAck v s).dirs = s.dirs := rfl
@[simp] theorem logAck_latches (v : Bool) (s : State) : (logAck v s).latches = s.latches := rfl
@[simp] theorem logAck_encIdx (v : Bool) (s : State) : (logAck v s).encIdx = s.encIdx := rfl
@[simp] theorem logAck_encDot (v : Bool) (s : State) : (logAck v s).encDot = s.encDot := rfl
@[simp] theorem logAck_trace (v : Bool) (s : State) : (logAck v s).trace = s.trace := rfl
@[simp] theorem logAck_host (v : Bool) (s : State) : (logAck v s).host = s.host := rfl
@[simp] theorem logAck_rdData (v : Bool) (s : State) : (logAck v s).rdData = s.rdData := rfl
@[simp] theorem logAck_initWritten (v : Bool) (s : State) : (logAck v s).initWritten = s.initWritten := rfl
@[simp] theorem logAck_events (v : Bool) (s : State) : (logAck v s).events = s.events := rfl
@[simp] theorem logAck_cfgScript (v : Bool) (s : State) : (logAck v s).cfgScript = s.cfgScript := rfl
@[simp] theorem logAck_levelScript (v : Bool) (s : State) : (logAck v s).levelScript = s.levelScript := rfl
@[simp] theorem logAck_cfgDraws (v : Bool) (s : State) : (logAck v s).cfgDraws = s.cfgDraws := rfl
@[simp] theorem logAck_levelDraws (v : Bool) (s : State) : (logAck v s).levelDraws = s.levelDraws := rfl

/-! ### complete -/

@[simp] theorem complete_fsm (s : State) : (complete s).fsm = .idle := rfl
@[simp] theorem complete_op (s : State) : (complete s).op = s.op := rfl
@[simp] theorem complete_seqIdx (s : State) : (complete s).seqIdx = 0 := rfl
@[simp] theorem complete_clkPin (s : State) : (complete s).clkPin = s.clkPin := rfl
@[simp] theorem complete_dioPin (s : State) : (complete s).dioPin = s.dioPin := rfl
@[simp] theorem complete_brightness (s : State) : (complete s).brightness = s.brightness := rfl
@[simp] theorem complete_position (s : State) : (complete s).position = s.position := rfl
@[simp] theorem complete_bitmap (s : State) : (complete s).bitmap = s.bitmap := rfl
@[simp] theorem complete_ackLog (s : State) : (complete s).ackLog = s.ackLog := rfl
@[simp] theorem complete_faultCause (s : State) : (complete s).faultCause = s.faultCause := rfl
@[simp] theorem complete_faultInfo (s : State) : (complete s).faultInfo = s.faultInfo := rfl
@[simp] theorem complete_outstanding (s : State) : (complete s).outstanding = s.outstanding := rfl
@[simp] theorem complete_hung (s : State) : (complete s).hung = s.hung := rfl
@[simp] theorem complete_dirs (s : State) : (complete s).dirs = s.dirs := rfl
@[simp] theorem complete_latches (s : State) : (complete s).latches = s.latches := rfl
@[simp] theorem complete_encIdx (s : State) : (complete s).encIdx = s.encIdx := rfl
@[simp] theorem complete_encDot (s : State) : (complete s).encDot = s.encDot := rfl
@[simp] theorem complete_trace (s : State) : (complete s).trace = s.trace := rfl
@[simp] theorem complete_host (s : State) : (complete s).host = s.host := rfl
@[simp] theorem complete_rdData (s : State) : (complete s).rdData = s.rdData := rfl
@[simp] theorem complete_initWritten (s : State) : (complete s).initWritten = s.initWritten := rfl
@[simp] theorem complete_events (s : State) : (complete s).events = s.events := rfl
@[simp] theorem complete_cfgScript (s : State) : (complete s).cfgScript = s.cfgScript := rfl
@[simp] theorem complete_levelScript (s : State) : (complete s).levelScript = s.levelScript := rfl
@[simp] theorem complete_cfgDraws (s : State) : (complete s).cfgDraws = s.cfgDraws := rfl
@[simp] theorem complete_levelDraws (s : State) : (complete s).levelDraws = s.levelDraws := rfl

/-! ### advance -/

@[simp] theorem advance_fsm (s : State) : (advance s).fsm = s.fsm := rfl
@[simp] theorem advance_op (s : State) : (advance s).op = s.op := rfl
@[simp] theorem advance_seqIdx (s : State) : (advance s).seqIdx = s.seqIdx + 1 := rfl
@[simp] theorem advance_clkPin (s : State) : (advance s).clkPin = s.clkPin := rfl
@[simp] theorem advance_dioPin (s : State) : (advance s).dioPin = s.dioPin := rfl
@[simp] theorem advance_brightness (s : State) : (advance s).brightness = s.brightness := rfl
@[simp] theorem advance_position (s : State) : (advance s).position = s.position := rfl
@[simp] theorem advance_bitmap (s : State) : (advance s).bitmap = s.bitmap := rfl
@[simp] theorem advance_ackLog (s : State) : (advance s).ackLog = s.ackLog := rfl
@[simp] theorem advance_faultCause (s : State) : (advance s).faultCause = s.faultCause := rfl
@[simp] theorem advance_faultInfo (s : State) : (advance s).faultInfo = s.faultInfo := rfl
@[simp] theorem advance_outstanding (s : State) : (advance s).outstanding = s.outstanding := rfl
@[simp] theorem advance_hung (s : State) : (advance s).hung = s.hung := rfl
@[simp] theorem advance_dirs (s : State) : (advance s).dirs = s.dirs := rfl
@[simp] theorem advance_latches (s : State) : (advance s).latches = s.latches := rfl
@[simp] theorem advance_encIdx (s : State) : (advance s).encIdx = s.encIdx := rfl
@[simp] theorem advance_encDot (s : State) : (advance s).encDot = s.encDot := rfl
@[simp] theorem advance_trace (s : State) : (advance s).trace = s.trace := rfl
@[simp] theorem advance_host (s : State) : (advance s).host = s.host := rfl
@[simp] theorem advance_rdData (s : State) : (advance s).rdData = s.rdData := rfl
@[simp] theorem advance_initWritten (s : State) : (advance s).initWritten = s.initWritten := rfl
@[simp] theorem advance_events (s : State) : (advance s).events = s.events := rfl
@[simp] theorem advance_cfgScript (s : State) : (advance s).cfgScript = s.cfgScript := rfl
@[simp] theorem advance_levelScript (s : State) : (advance s).levelScript = s.levelScript := rfl
@[simp] theorem advance_cfgDraws (s : State) : (advance s).cfgDraws = s.cfgDraws := rfl
@[simp] theorem advance_levelDraws (s : State) : (advance s).levelDraws = s.levelDraws := rfl

/-! ### hostRead -/

@[simp] theorem hostRead_fsm (reg : BitVec 2) (s : State) : (hostRead reg s).fsm = s.fsm := rfl
@[simp] theorem hostRead_op (reg : BitVec 2) (s : State) : (hostRead reg s).op = s.op := rfl
@[simp] theorem hostRead_seqIdx (reg : BitVec 2) (s : State) : (hostRead reg s).seqIdx = s.seqIdx := rfl
@[simp] theorem hostRead_clkPin (reg : BitVec 2) (s : State) : (hostRead reg s).clkPin = s.clkPin := rfl
@[simp] theorem hostRead_dioPin (reg : BitVec 2) (s : State) : (hostRead reg s).dioPin = s.dioPin := rfl
@[simp] theorem hostRead_brightness (reg : BitVec 2) (s : State) : (hostRead reg s).brightness = s.brightness := rfl
@[simp] theorem hostRead_position (reg : BitVec 2) (s : State) : (hostRead reg s).position = s.position := rfl
@[simp] theorem hostRead_bitmap (reg : BitVec 2) (s : State) : (hostRead reg s).bitmap = s.bitmap := rfl
@[simp] theorem hostRead_ackLog (reg : BitVec 2) (s : State) : (hostRead reg s).ackLog = s.ackLog := rfl
@[simp] theorem hostRead_faultCause (reg : BitVec 2) (s : State) : (hostRead reg s).faultCause = s.faultCause := rfl
@[simp] theorem hostRead_faultInfo (reg : BitVec 2) (s : State) : (hostRead reg s).faultInfo = s.faultInfo := rfl
@[simp] theorem hostRead_outstanding (reg : BitVec 2) (s : State) : (hostRead reg s).outstanding = s.outstanding := rfl
@[simp] theorem hostRead_hung (reg : BitVec 2) (s : State) : (hostRead reg s).hung = s.hung := rfl
@[simp] theorem hostRead_dirs (reg : BitVec 2) (s : State) : (hostRead reg s).dirs = s.dirs := rfl
@[simp] theorem hostRead_latches (reg : BitVec 2) (s : State) : (hostRead reg s).latches = s.latches := rfl
@[simp] theorem hostRead_encIdx (reg : BitVec 2) (s : State) : (hostRead reg s).encIdx = s.encIdx := rfl
@[simp] theorem hostRead_encDot (reg : BitVec 2) (s : State) : (hostRead reg s).encDot = s.encDot := rfl
@[simp] theorem hostRead_trace (reg : BitVec 2) (s : State) : (hostRead reg s).trace = s.trace := rfl
@[simp] theorem hostRead_host (reg : BitVec 2) (s : State) : (hostRead reg s).host = s.host := rfl
@[simp] theorem hostRead_rdData (reg : BitVec 2) (s : State) : (hostRead reg s).rdData = readReg reg s := rfl
@[simp] theorem hostRead_initWritten (reg : BitVec 2) (s : State) : (hostRead reg s).initWritten = s.initWritten := rfl
@[simp] theorem hostRead_events (reg : BitVec 2) (s : State) : (hostRead reg s).events = s.events := rfl
@[simp] theorem hostRead_cfgScript (reg : BitVec 2) (s : State) : (hostRead reg s).cfgScript = s.cfgScript := rfl
@[simp] theorem hostRead_levelScript (reg : BitVec 2) (s : State) : (hostRead reg s).levelScript = s.levelScript := rfl
@[simp] theorem hostRead_cfgDraws (reg : BitVec 2) (s : State) : (hostRead reg s).cfgDraws = s.cfgDraws := rfl
@[simp] theorem hostRead_levelDraws (reg : BitVec 2) (s : State) : (hostRead reg s).levelDraws = s.levelDraws := rfl

/-! ### driveEncoder -/

@[simp] theorem driveEncoder_fsm (dot : Bool) (idx : Byte) (s : State) : (driveEncoder dot idx s).fsm = s.fsm := rfl
@[simp] theorem driveEncoder_op (dot : Bool) (idx : Byte) (s : State) : (driveEncoder dot idx s).op = s.op := rfl
@[simp] theorem driveEncoder_seqIdx (dot : Bool) (idx : Byte) (s : State) : (driveEncoder dot idx s).seqIdx = s.seqIdx := rfl
@[simp] theorem driveEncoder_clkPin (dot : Bool) (idx : Byte) (s : State) : (driveEncoder dot idx s).clkPin = s.clkPin := rfl
@[simp] theorem driveEncoder_dioPin (dot : Bool) (idx : Byte) (s : State) : (driveEncoder dot idx s).dioPin = s.dioPin := rfl
@[simp] theorem driveEncoder_brightness (dot : Bool) (idx : Byte) (s : State) : (driveEncoder dot idx s).brightness = s.brightness := rfl
@[simp] theorem driveEncoder_position (dot : Bool) (idx : Byte) (s : State) : (driveEncoder dot idx s).position = s.position := rfl
@[simp] theorem driveEncoder_bitmap (dot : Bool) (idx : Byte) (s : State) : (driveEncoder dot idx s).bitmap = s.bitmap := rfl
@[simp] theorem driveEncoder_ackLog (dot : Bool) (idx : Byte) (s : State) : (driveEncoder dot idx s).ackLog = s.ackLog := rfl
@[simp] theorem driveEncoder_faultCause (dot : Bool) (idx : Byte) (s : State) : (driveEncoder dot idx s).faultCause = s.faultCause := rfl
@[simp] theorem driveEncoder_faultInfo (dot : Bool) (idx : Byte) (s : State) : (driveEncoder dot idx s).faultInfo = s.faultInfo := rfl
@[simp] theorem driveEncoder_outstanding (dot : Bool) (idx : Byte) (s : State) : (driveEncoder dot idx s).outstanding = s.outstanding := rfl
@[simp] theorem driveEncoder_hung (dot : Bool) (idx : Byte) (s : State) : (driveEncoder dot idx s).hung = s.hung := rfl
@[simp] theorem driveEncoder_dirs (dot : Bool) (idx : Byte) (s : State) : (driveEncoder dot idx s).dirs = s.dirs := rfl
@[simp] theorem driveEncoder_latches (dot : Bool) (idx : Byte) (s : State) : (driveEncoder dot idx s).latches = s.latches := rfl
@[simp] theorem driveEncoder_encIdx (dot : Bool) (idx : Byte) (s : State) : (driveEncoder dot idx s).encIdx = idx := rfl
@[simp] theorem driveEncoder_encDot (dot : Bool) (idx : Byte) (s : State) : (driveEncoder dot idx s).encDot = dot := rfl
@[simp] theorem driveEncoder_trace (dot : Bool) (idx : Byte) (s : State) : (driveEncoder dot idx s).trace = s.trace := rfl
@[simp] theorem driveEncoder_host (dot : Bool) (idx : Byte) (s : State) : (driveEncoder dot idx s).host = s.host := rfl
@[simp] theorem driveEncoder_rdData (dot : Bool) (idx : Byte) (s : State) : (driveEncoder dot idx s).rdData = s.rdData := rfl
@[simp] theorem driveEncoder_initWritten (dot : Bool) (idx : Byte) (s : State) : (driveEncoder dot idx s).initWritten = s.initWritten := rfl
@[simp] theorem driveEncoder_events (dot : Bool) (idx : Byte) (s : State) : (driveEncoder dot idx s).events = s.events := rfl
@[simp] theorem driveEncoder_cfgScript (dot : Bool) (idx : Byte) (s : State) : (driveEncoder dot idx s).cfgScript = s.cfgScript := rfl
@[simp] theorem driveEncoder_levelScript (dot : Bool) (idx : Byte) (s : State) : (driveEncoder dot idx s).levelScript = s.levelScript := rfl
@[simp] theorem driveEncoder_cfgDraws (dot : Bool) (idx : Byte) (s : State) : (driveEncoder dot idx s).cfgDraws = s.cfgDraws := rfl
@[simp] theorem driveEncoder_levelDraws (dot : Bool) (idx : Byte) (s : State) : (driveEncoder dot idx s).levelDraws = s.levelDraws := rfl

/-! ### elapse -/

@[simp] theorem elapse_fsm (s : State) : (elapse s).fsm = s.fsm := rfl
@[simp] theorem elapse_op (s : State) : (elapse s).op = s.op := rfl
@[simp] theorem elapse_seqIdx (s : State) : (elapse s).seqIdx = s.seqIdx := rfl
@[simp] theorem elapse_clkPin (s : State) : (elapse s).clkPin = s.clkPin := rfl
@[simp] theorem elapse_dioPin (s : State) : (elapse s).dioPin = s.dioPin := rfl
@[simp] theorem elapse_brightness (s : State) : (elapse s).brightness = s.brightness := rfl
@[simp] theorem elapse_position (s : State) : (elapse s).position = s.position := rfl
@[simp] theorem elapse_bitmap (s : State) : (elapse s).bitmap = s.bitmap := rfl
@[simp] theorem elapse_ackLog (s : State) : (elapse s).ackLog = s.ackLog := rfl
@[simp] theorem elapse_faultCause (s : State) : (elapse s).faultCause = s.faultCause := rfl
@[simp] theorem elapse_faultInfo (s : State) : (elapse s).faultInfo = s.faultInfo := rfl
@[simp] theorem elapse_outstanding (s : State) : (elapse s).outstanding = s.outstanding := rfl
@[simp] theorem elapse_hung (s : State) : (elapse s).hung = s.hung := rfl
@[simp] theorem elapse_dirs (s : State) : (elapse s).dirs = s.dirs := rfl
@[simp] theorem elapse_latches (s : State) : (elapse s).latches = s.latches := rfl
@[simp] theorem elapse_encIdx (s : State) : (elapse s).encIdx = s.encIdx := rfl
@[simp] theorem elapse_encDot (s : State) : (elapse s).encDot = s.encDot := rfl
@[simp] theorem elapse_trace (s : State) : (elapse s).trace = s.trace := rfl
@[simp] theorem elapse_host (s : State) : (elapse s).host = tickHost s.host := rfl
@[simp] theorem elapse_rdData (s : State) : (elapse s).rdData = s.rdData := rfl
@[simp] theorem elapse_initWritten (s : State) : (elapse s).initWritten = s.initWritten := rfl
@[simp] theorem elapse_events (s : State) : (elapse s).events = tickEvents s.events := rfl
@[simp] theorem elapse_cfgScript (s : State) : (elapse s).cfgScript = s.cfgScript := rfl
@[simp] theorem elapse_levelScript (s : State) : (elapse s).levelScript = s.levelScript := rfl
@[simp] theorem elapse_cfgDraws (s : State) : (elapse s).cfgDraws = s.cfgDraws := rfl
@[simp] theorem elapse_levelDraws (s : State) : (elapse s).levelDraws = s.levelDraws := rfl

/-! ### popHost -/

@[simp] theorem popHost_fsm (s : State) : (popHost s).fsm = s.fsm := rfl
@[simp] theorem popHost_op (s : State) : (popHost s).op = s.op := rfl
@[simp] theorem popHost_seqIdx (s : State) : (popHost s).seqIdx = s.seqIdx := rfl
@[simp] theorem popHost_clkPin (s : State) : (popHost s).clkPin = s.clkPin := rfl
@[simp] theorem popHost_dioPin (s : State) : (popHost s).dioPin = s.dioPin := rfl
@[simp] theorem popHost_brightness (s : State) : (popHost s).brightness = s.brightness := rfl
@[simp] theorem popHost_position (s : State) : (popHost s).position = s.position := rfl
@[simp] theorem popHost_bitmap (s : State) : (popHost s).bitmap = s.bitmap := rfl
@[simp] theorem popHost_ackLog (s : State) : (popHost s).ackLog = s.ackLog := rfl
@[simp] theorem popHost_faultCause (s : State) : (popHost s).faultCause = s.faultCause := rfl
@[simp] theorem popHost_faultInfo (s : State) : (popHost s).faultInfo = s.faultInfo := rfl
@[simp] theorem popHost_outstanding (s : State) : (popHost s).outstanding = s.outstanding := rfl
@[simp] theorem popHost_hung (s : State) : (popHost s).hung = s.hung := rfl
@[simp] theorem popHost_dirs (s : State) : (popHost s).dirs = s.dirs := rfl
@[simp] theorem popHost_latches (s : State) : (popHost s).latches = s.latches := rfl
@[simp] theorem popHost_encIdx (s : State) : (popHost s).encIdx = s.encIdx := rfl
@[simp] theorem popHost_encDot (s : State) : (popHost s).encDot = s.encDot := rfl
@[simp] theorem popHost_trace (s : State) : (popHost s).trace = s.trace := rfl
@[simp] theorem popHost_host (s : State) : (popHost s).host = s.host.tail := rfl
@[simp] theorem popHost_rdData (s : State) : (popHost s).rdData = s.rdData := rfl
@[simp] theorem popHost_initWritten (s : State) : (popHost s).initWritten = s.initWritten := rfl
@[simp] theorem popHost_events (s : State) : (popHost s).events = s.events := rfl
@[simp] theorem popHost_cfgScript (s : State) : (popHost s).cfgScript = s.cfgScript := rfl
@[simp] theorem popHost_levelScript (s : State) : (popHost s).levelScript = s.levelScript := rfl
@[simp] theorem popHost_cfgDraws (s : State) : (popHost s).cfgDraws = s.cfgDraws := rfl
@[simp] theorem popHost_levelDraws (s : State) : (popHost s).levelDraws = s.levelDraws := rfl

/-! ### noteOp -/

@[simp] theorem noteOp_fsm (op : HostOp) (s : State) : (noteOp op s).fsm = s.fsm := rfl
@[simp] theorem noteOp_op (op : HostOp) (s : State) : (noteOp op s).op = s.op := rfl
@[simp] theorem noteOp_seqIdx (op : HostOp) (s : State) : (noteOp op s).seqIdx = s.seqIdx := rfl
@[simp] theorem noteOp_clkPin (op : HostOp) (s : State) : (noteOp op s).clkPin = s.clkPin := rfl
@[simp] theorem noteOp_dioPin (op : HostOp) (s : State) : (noteOp op s).dioPin = s.dioPin := rfl
@[simp] theorem noteOp_brightness (op : HostOp) (s : State) : (noteOp op s).brightness = s.brightness := rfl
@[simp] theorem noteOp_position (op : HostOp) (s : State) : (noteOp op s).position = s.position := rfl
@[simp] theorem noteOp_bitmap (op : HostOp) (s : State) : (noteOp op s).bitmap = s.bitmap := rfl
@[simp] theorem noteOp_ackLog (op : HostOp) (s : State) : (noteOp op s).ackLog = s.ackLog := rfl
@[simp] theorem noteOp_faultCause (op : HostOp) (s : State) : (noteOp op s).faultCause = s.faultCause := rfl
@[simp] theorem noteOp_faultInfo (op : HostOp) (s : State) : (noteOp op s).faultInfo = s.faultInfo := rfl
@[simp] theorem noteOp_outstanding (op : HostOp) (s : State) : (noteOp op s).outstanding = s.outstanding := rfl
@[simp] theorem noteOp_hung (op : HostOp) (s : State) : (noteOp op s).hung = s.hung := rfl
@[simp] theorem noteOp_dirs (op : HostOp) (s : State) : (noteOp op s).dirs = s.dirs := rfl
@[simp] theorem noteOp_latches (op : HostOp) (s : State) : (noteOp op s).latches = s.latches := rfl
@[simp] theorem noteOp_encIdx (op : HostOp) (s : State) : (noteOp op s).encIdx = s.encIdx := rfl
@[simp] theorem noteOp_encDot (op : HostOp) (s : State) : (noteOp op s).encDot = s.encDot := rfl
@[simp] theorem noteOp_trace (op : HostOp) (s : State) : (noteOp op s).trace = s.trace := rfl
@[simp] theorem noteOp_host (op : HostOp) (s : State) : (noteOp op s).host = s.host := rfl
@[simp] theorem noteOp_rdData (op : HostOp) (s : State) : (noteOp op s).rdData = s.rdData := rfl
@[simp] theorem noteOp_initWritten (op : HostOp) (s : State) : (noteOp op s).initWritten = (s.initWritten || isInitWrite op) := rfl
@[simp] theorem noteOp_events (op : HostOp) (s : State) : (noteOp op s).events = s.events := rfl
@[simp] theorem noteOp_cfgScript (op : HostOp) (s : State) : (noteOp op s).cfgScript = s.cfgScript := rfl
@[simp] theorem noteOp_levelScript (op : HostOp) (s : State) : (noteOp op s).levelScript = s.levelScript := rfl
@[simp] theorem noteOp_cfgDraws (op : HostOp) (s : State) : (noteOp op s).cfgDraws = s.cfgDraws := rfl
@[simp] theorem noteOp_levelDraws (op : HostOp) (s : State) : (noteOp op s).levelDraws = s.levelDraws := rfl

/-! ### popEvent -/

@[simp] theorem popEvent_fsm (s : State) : (popEvent s).fsm = s.fsm := rfl
@[simp] theorem popEvent_op (s : State) : (popEvent s).op = s.op := rfl
@[simp] theorem popEvent_seqIdx (s : State) : (popEvent s).seqIdx = s.seqIdx := rfl
@[simp] theorem popEvent_clkPin (s : State) : (popEvent s).clkPin = s.clkPin := rfl
@[simp] theorem popEvent_dioPin (s : State) : (popEvent s).dioPin = s.dioPin := rfl
@[simp] theorem popEvent_brightness (s : State) : (popEvent s).brightness = s.brightness := rfl
@[simp] theorem popEvent_position (s : State) : (popEvent s).position = s.position := rfl
@[simp] theorem popEvent_bitmap (s : State) : (popEvent s).bitmap = s.bitmap := rfl
@[simp] theorem popEvent_ackLog (s : State) : (popEvent s).ackLog = s.ackLog := rfl
@[simp] theorem popEvent_faultCause (s : State) : (popEvent s).faultCause = s.faultCause := rfl
@[simp] theorem popEvent_faultInfo (s : State) : (popEvent s).faultInfo = s.faultInfo := rfl
@[simp] theorem popEvent_outstanding (s : State) : (popEvent s).outstanding = s.outstanding := rfl
@[simp] theorem popEvent_hung (s : State) : (popEvent s).hung = s.hung := rfl
@[simp] theorem popEvent_dirs (s : State) : (popEvent s).dirs = s.dirs := rfl
@[simp] theorem popEvent_latches (s : State) : (popEvent s).latches = s.latches := rfl
@[simp] theorem popEvent_encIdx (s : State) : (popEvent s).encIdx = s.encIdx := rfl
@[simp] theorem popEvent_encDot (s : State) : (popEvent s).encDot = s.encDot := rfl
@[simp] theorem popEvent_trace (s : State) : (popEvent s).trace = s.trace := rfl
@[simp] theorem popEvent_host (s : State) : (popEvent s).host = s.host := rfl
@[simp] theorem popEvent_rdData (s : State) : (popEvent s).rdData = s.rdData := rfl
@[simp] theorem popEvent_initWritten (s : State) : (popEvent s).initWritten = s.initWritten := rfl
@[simp] theorem popEvent_events (s : State) : (popEvent s).events = s.events.tail := rfl
@[simp] theorem popEvent_cfgScript (s : State) : (popEvent s).cfgScript = s.cfgScript := rfl
@[simp] theorem popEvent_levelScript (s : State) : (popEvent s).levelScript = s.levelScript := rfl
@[simp] theorem popEvent_cfgDraws (s : State) : (popEvent s).cfgDraws = s.cfgDraws := rfl
@[simp] theorem popEvent_levelDraws (s : State) : (popEvent s).levelDraws = s.levelDraws := rfl

/-! ### pushHost -/

@[simp] theorem pushHost_fsm (r : HostReq) (s : State) : (pushHost r s).fsm = s.fsm := rfl
@[simp] theorem pushHost_op (r : HostReq) (s : State) : (pushHost r s).op = s.op := rfl
@[simp] theorem pushHost_seqIdx (r : HostReq) (s : State) : (pushHost r s).seqIdx = s.seqIdx := rfl
@[simp] theorem pushHost_clkPin (r : HostReq) (s : State) : (pushHost r s).clkPin = s.clkPin := rfl
@[simp] theorem pushHost_dioPin (r : HostReq) (s : State) : (pushHost r s).dioPin = s.dioPin := rfl
@[simp] theorem pushHost_brightness (r : HostReq) (s : State) : (pushHost r s).brightness = s.brightness := rfl
@[simp] theorem pushHost_position (r : HostReq) (s : State) : (pushHost r s).position = s.position := rfl
@[simp] theorem pushHost_bitmap (r : HostReq) (s : State) : (pushHost r s).bitmap = s.bitmap := rfl
@[simp] theorem pushHost_ackLog (r : HostReq) (s : State) : (pushHost r s).ackLog = s.ackLog := rfl
@[simp] theorem pushHost_faultCause (r : HostReq) (s : State) : (pushHost r s).faultCause = s.faultCause := rfl
@[simp] theorem pushHost_faultInfo (r : HostReq) (s : State) : (pushHost r s).faultInfo = s.faultInfo := rfl
@[simp] theorem pushHost_outstanding (r : HostReq) (s : State) : (pushHost r s).outstanding = s.outstanding := rfl
@[simp] theorem pushHost_hung (r : HostReq) (s : State) : (pushHost r s).hung = s.hung := rfl
@[simp] theorem pushHost_dirs (r : HostReq) (s : State) : (pushHost r s).dirs = s.dirs := rfl
@[simp] theorem pushHost_latches (r : HostReq) (s : State) : (pushHost r s).latches = s.latches := rfl
@[simp] theorem pushHost_encIdx (r : HostReq) (s : State) : (pushHost r s).encIdx = s.encIdx := rfl
@[simp] theorem pushHost_encDot (r : HostReq) (s : State) : (pushHost r s).encDot = s.encDot := rfl
@[simp] theorem pushHost_trace (r : HostReq) (s : State) : (pushHost r s).trace = s.trace := rfl
@[simp] theorem pushHost_host (r : HostReq) (s : State) : (pushHost r s).host = r :: s.host := rfl
@[simp] theorem pushHost_rdData (r : HostReq) (s : State) : (pushHost r s).rdData = s.rdData := rfl
@[simp] theorem pushHost_initWritten (r : HostReq) (s : State) : (pushHost r s).initWritten = s.initWritten := rfl
@[simp] theorem pushHost_events (r : HostReq) (s : State) : (pushHost r s).events = s.events := rfl
@[simp] theorem pushHost_cfgScript (r : HostReq) (s : State) : (pushHost r s).cfgScript = s.cfgScript := rfl
@[simp] theorem pushHost_levelScript (r : HostReq) (s : State) : (pushHost r s).levelScript = s.levelScript := rfl
@[simp] theorem pushHost_cfgDraws (r : HostReq) (s : State) : (pushHost r s).cfgDraws = s.cfgDraws := rfl
@[simp] theorem pushHost_levelDraws (r : HostReq) (s : State) : (pushHost r s).levelDraws = s.levelDraws := rfl

/-! ### performInit -/

@[simp] theorem performInit_fsm (clk dio : PinId) (s : State) : (performInit clk dio s).fsm = .busy := rfl
@[simp] theorem performInit_op (clk dio : PinId) (s : State) : (performInit clk dio s).op = .init := rfl
@[simp] theorem performInit_seqIdx (clk dio : PinId) (s : State) : (performInit clk dio s).seqIdx = 0 := rfl
@[simp] theorem performInit_clkPin (clk dio : PinId) (s : State) : (performInit clk dio s).clkPin = clk := rfl
@[simp] theorem performInit_dioPin (clk dio : PinId) (s : State) : (performInit clk dio s).dioPin = dio := rfl
@[simp] theorem performInit_brightness (clk dio : PinId) (s : State) : (performInit clk dio s).brightness = hw.defaultBrightness := rfl
@[simp] theorem performInit_position (clk dio : PinId) (s : State) : (performInit clk dio s).position = s.position := rfl
@[simp] theorem performInit_bitmap (clk dio : PinId) (s : State) : (performInit clk dio s).bitmap = s.bitmap := rfl
@[simp] theorem performInit_ackLog (clk dio : PinId) (s : State) : (performInit clk dio s).ackLog = 0 := rfl
@[simp] theorem performInit_faultCause (clk dio : PinId) (s : State) : (performInit clk dio s).faultCause = s.faultCause := rfl
@[simp] theorem performInit_faultInfo (clk dio : PinId) (s : State) : (performInit clk dio s).faultInfo = s.faultInfo := rfl
@[simp] theorem performInit_outstanding (clk dio : PinId) (s : State) : (performInit clk dio s).outstanding = s.outstanding := rfl
@[simp] theorem performInit_hung (clk dio : PinId) (s : State) : (performInit clk dio s).hung = s.hung := rfl
@[simp] theorem performInit_dirs (clk dio : PinId) (s : State) : (performInit clk dio s).dirs = s.dirs := rfl
@[simp] theorem performInit_latches (clk dio : PinId) (s : State) : (performInit clk dio s).latches = s.latches := rfl
@[simp] theorem performInit_encIdx (clk dio : PinId) (s : State) : (performInit clk dio s).encIdx = s.encIdx := rfl
@[simp] theorem performInit_encDot (clk dio : PinId) (s : State) : (performInit clk dio s).encDot = s.encDot := rfl
@[simp] theorem performInit_trace (clk dio : PinId) (s : State) : (performInit clk dio s).trace = s.trace := rfl
@[simp] theorem performInit_host (clk dio : PinId) (s : State) : (performInit clk dio s).host = s.host := rfl
@[simp] theorem performInit_rdData (clk dio : PinId) (s : State) : (performInit clk dio s).rdData = s.rdData := rfl
@[simp] theorem performInit_initWritten (clk dio : PinId) (s : State) : (performInit clk dio s).initWritten = s.initWritten := rfl
@[simp] theorem performInit_events (clk dio : PinId) (s : State) : (performInit clk dio s).events = s.events := rfl
@[simp] theorem performInit_cfgScript (clk dio : PinId) (s : State) : (performInit clk dio s).cfgScript = s.cfgScript := rfl
@[simp] theorem performInit_levelScript (clk dio : PinId) (s : State) : (performInit clk dio s).levelScript = s.levelScript := rfl
@[simp] theorem performInit_cfgDraws (clk dio : PinId) (s : State) : (performInit clk dio s).cfgDraws = s.cfgDraws := rfl
@[simp] theorem performInit_levelDraws (clk dio : PinId) (s : State) : (performInit clk dio s).levelDraws = s.levelDraws := rfl

/-! ### performSetBrightness -/

@[simp] theorem performSetBrightness_fsm (level : Byte) (s : State) : (performSetBrightness level s).fsm = s.fsm := rfl
@[simp] theorem performSetBrightness_op (level : Byte) (s : State) : (performSetBrightness level s).op = s.op := rfl
@[simp] theorem performSetBrightness_seqIdx (level : Byte) (s : State) : (performSetBrightness level s).seqIdx = s.seqIdx := rfl
@[simp] theorem performSetBrightness_clkPin (level : Byte) (s : State) : (performSetBrightness level s).clkPin = s.clkPin := rfl
@[simp] theorem performSetBrightness_dioPin (level : Byte) (s : State) : (performSetBrightness level s).dioPin = s.dioPin := rfl
@[simp] theorem performSetBrightness_brightness (level : Byte) (s : State) : (performSetBrightness level s).brightness = clamp7 level := rfl
@[simp] theorem performSetBrightness_position (level : Byte) (s : State) : (performSetBrightness level s).position = s.position := rfl
@[simp] theorem performSetBrightness_bitmap (level : Byte) (s : State) : (performSetBrightness level s).bitmap = s.bitmap := rfl
@[simp] theorem performSetBrightness_ackLog (level : Byte) (s : State) : (performSetBrightness level s).ackLog = s.ackLog := rfl
@[simp] theorem performSetBrightness_faultCause (level : Byte) (s : State) : (performSetBrightness level s).faultCause = s.faultCause := rfl
@[simp] theorem performSetBrightness_faultInfo (level : Byte) (s : State) : (performSetBrightness level s).faultInfo = s.faultInfo := rfl
@[simp] theorem performSetBrightness_outstanding (level : Byte) (s : State) : (performSetBrightness level s).outstanding = s.outstanding := rfl
@[simp] theorem performSetBrightness_hung (level : Byte) (s : State) : (performSetBrightness level s).hung = s.hung := rfl
@[simp] theorem performSetBrightness_dirs (level : Byte) (s : State) : (performSetBrightness level s).dirs = s.dirs := rfl
@[simp] theorem performSetBrightness_latches (level : Byte) (s : State) : (performSetBrightness level s).latches = s.latches := rfl
@[simp] theorem performSetBrightness_encIdx (level : Byte) (s : State) : (performSetBrightness level s).encIdx = s.encIdx := rfl
@[simp] theorem performSetBrightness_encDot (level : Byte) (s : State) : (performSetBrightness level s).encDot = s.encDot := rfl
@[simp] theorem performSetBrightness_trace (level : Byte) (s : State) : (performSetBrightness level s).trace = s.trace := rfl
@[simp] theorem performSetBrightness_host (level : Byte) (s : State) : (performSetBrightness level s).host = s.host := rfl
@[simp] theorem performSetBrightness_rdData (level : Byte) (s : State) : (performSetBrightness level s).rdData = s.rdData := rfl
@[simp] theorem performSetBrightness_initWritten (level : Byte) (s : State) : (performSetBrightness level s).initWritten = s.initWritten := rfl
@[simp] theorem performSetBrightness_events (level : Byte) (s : State) : (performSetBrightness level s).events = s.events := rfl
@[simp] theorem performSetBrightness_cfgScript (level : Byte) (s : State) : (performSetBrightness level s).cfgScript = s.cfgScript := rfl
@[simp] theorem performSetBrightness_levelScript (level : Byte) (s : State) : (performSetBrightness level s).levelScript = s.levelScript := rfl
@[simp] theorem performSetBrightness_cfgDraws (level : Byte) (s : State) : (performSetBrightness level s).cfgDraws = s.cfgDraws := rfl
@[simp] theorem performSetBrightness_levelDraws (level : Byte) (s : State) : (performSetBrightness level s).levelDraws = s.levelDraws := rfl

/-! ### performWriteSegmentRaw -/

@[simp] theorem performWriteSegmentRaw_fsm (pos bm : Byte) (s : State) : (performWriteSegmentRaw pos bm s).fsm = .busy := rfl
@[simp] theorem performWriteSegmentRaw_op (pos bm : Byte) (s : State) : (performWriteSegmentRaw pos bm s).op = .write := rfl
@[simp] theorem performWriteSegmentRaw_seqIdx (pos bm : Byte) (s : State) : (performWriteSegmentRaw pos bm s).seqIdx = 0 := rfl
@[simp] theorem performWriteSegmentRaw_clkPin (pos bm : Byte) (s : State) : (performWriteSegmentRaw pos bm s).clkPin = s.clkPin := rfl
@[simp] theorem performWriteSegmentRaw_dioPin (pos bm : Byte) (s : State) : (performWriteSegmentRaw pos bm s).dioPin = s.dioPin := rfl
@[simp] theorem performWriteSegmentRaw_brightness (pos bm : Byte) (s : State) : (performWriteSegmentRaw pos bm s).brightness = s.brightness := rfl
@[simp] theorem performWriteSegmentRaw_position (pos bm : Byte) (s : State) : (performWriteSegmentRaw pos bm s).position = positionOf pos := rfl
@[simp] theorem performWriteSegmentRaw_bitmap (pos bm : Byte) (s : State) : (performWriteSegmentRaw pos bm s).bitmap = bm := rfl
@[simp] theorem performWriteSegmentRaw_ackLog (pos bm : Byte) (s : State) : (performWriteSegmentRaw pos bm s).ackLog = 0 := rfl
@[simp] theorem performWriteSegmentRaw_faultCause (pos bm : Byte) (s : State) : (performWriteSegmentRaw pos bm s).faultCause = s.faultCause := rfl
@[simp] theorem performWriteSegmentRaw_faultInfo (pos bm : Byte) (s : State) : (performWriteSegmentRaw pos bm s).faultInfo = s.faultInfo := rfl
@[simp] theorem performWriteSegmentRaw_outstanding (pos bm : Byte) (s : State) : (performWriteSegmentRaw pos bm s).outstanding = s.outstanding := rfl
@[simp] theorem performWriteSegmentRaw_hung (pos bm : Byte) (s : State) : (performWriteSegmentRaw pos bm s).hung = s.hung := rfl
@[simp] theorem performWriteSegmentRaw_dirs (pos bm : Byte) (s : State) : (performWriteSegmentRaw pos bm s).dirs = s.dirs := rfl
@[simp] theorem performWriteSegmentRaw_latches (pos bm : Byte) (s : State) : (performWriteSegmentRaw pos bm s).latches = s.latches := rfl
@[simp] theorem performWriteSegmentRaw_encIdx (pos bm : Byte) (s : State) : (performWriteSegmentRaw pos bm s).encIdx = s.encIdx := rfl
@[simp] theorem performWriteSegmentRaw_encDot (pos bm : Byte) (s : State) : (performWriteSegmentRaw pos bm s).encDot = s.encDot := rfl
@[simp] theorem performWriteSegmentRaw_trace (pos bm : Byte) (s : State) : (performWriteSegmentRaw pos bm s).trace = s.trace := rfl
@[simp] theorem performWriteSegmentRaw_host (pos bm : Byte) (s : State) : (performWriteSegmentRaw pos bm s).host = s.host := rfl
@[simp] theorem performWriteSegmentRaw_rdData (pos bm : Byte) (s : State) : (performWriteSegmentRaw pos bm s).rdData = s.rdData := rfl
@[simp] theorem performWriteSegmentRaw_initWritten (pos bm : Byte) (s : State) : (performWriteSegmentRaw pos bm s).initWritten = s.initWritten := rfl
@[simp] theorem performWriteSegmentRaw_events (pos bm : Byte) (s : State) : (performWriteSegmentRaw pos bm s).events = s.events := rfl
@[simp] theorem performWriteSegmentRaw_cfgScript (pos bm : Byte) (s : State) : (performWriteSegmentRaw pos bm s).cfgScript = s.cfgScript := rfl
@[simp] theorem performWriteSegmentRaw_levelScript (pos bm : Byte) (s : State) : (performWriteSegmentRaw pos bm s).levelScript = s.levelScript := rfl
@[simp] theorem performWriteSegmentRaw_cfgDraws (pos bm : Byte) (s : State) : (performWriteSegmentRaw pos bm s).cfgDraws = s.cfgDraws := rfl
@[simp] theorem performWriteSegmentRaw_levelDraws (pos bm : Byte) (s : State) : (performWriteSegmentRaw pos bm s).levelDraws = s.levelDraws := rfl

end Sys2Proof.Machine
end

