-- ==== Sys2Proof/Laws/Pins.lean ====
section
/-! SUPPORT. The pin space: a read after a write to the same pin gives the value written, a write leaves every other pin alone, and
every write keeps the canonical form. -/

namespace Sys2Proof.Machine

theorem pinLookup_insert_self {α : Type} (k : Nat) (v : α) (m : List (Nat × α)) :
    pinLookup k (pinInsert k v m) = some v := by
  induction m with
  | nil => simp [pinInsert, pinLookup]
  | cons e m ih =>
    simp only [pinInsert]
    split
    · simp [pinLookup]
    · split
      · simp [pinLookup]
      · simp [pinLookup, *]

theorem pinLookup_insert_ne {α : Type} {k k' : Nat} (h : k' ≠ k) (v : α) (m : List (Nat × α)) :
    pinLookup k' (pinInsert k v m) = pinLookup k' m := by
  induction m with
  | nil => simp [pinInsert, pinLookup, h]
  | cons e m ih =>
    simp only [pinInsert]
    split
    · simp [pinLookup, h]
    · split
      · next h1 h2 => subst h2; simp [pinLookup, h]
      · simp [pinLookup, ih]

theorem mem_pinInsert {α : Type} {k : Nat} {v : α} {m : List (Nat × α)} {e : Nat × α}
    (h : e ∈ pinInsert k v m) : e = (k, v) ∨ e ∈ m := by
  induction m with
  | nil => simpa [pinInsert] using h
  | cons x m ih =>
    simp only [pinInsert] at h
    split at h
    · simpa using h
    · split at h
      · rcases List.mem_cons.1 h with h | h
        · exact .inl h
        · exact .inr (List.mem_cons_of_mem _ h)
      · rcases List.mem_cons.1 h with h | h
        · exact .inr (by simp [h])
        · exact (ih h).imp id (List.mem_cons_of_mem _)

theorem pinInsert_sorted {α : Type} {k : Nat} {v : α} {m : List (Nat × α)}
    (h : m.Pairwise (fun a b => a.1 < b.1)) : (pinInsert k v m).Pairwise (fun a b => a.1 < b.1) := by
  induction m with
  | nil => simp [pinInsert]
  | cons x m ih =>
    obtain ⟨hx, hm⟩ := List.pairwise_cons.1 h
    simp only [pinInsert]
    split
    · next hk =>
      refine List.pairwise_cons.2 ⟨fun e he => ?_, h⟩
      rcases List.mem_cons.1 he with rfl | he
      · exact hk
      · exact Nat.lt_trans hk (hx e he)
    · split
      · next hk => subst hk; exact List.pairwise_cons.2 ⟨hx, hm⟩
      · next h1 h2 =>
        refine List.pairwise_cons.2 ⟨fun e he => ?_, ih hm⟩
        rcases mem_pinInsert he with rfl | he
        · change x.1 < k
          have : ¬ k < x.1 := h1
          have : ¬ k = x.1 := h2
          omega
        · exact hx e he

/-- Every write of a pin's entry keeps the canonical form. -/
theorem pinInsert_wf {α : Type} (p : PinId) (v : α) {m : List (Nat × α)} (h : PinMap.wf m) :
    PinMap.wf (pinInsert p.toNat v m) := by
  refine ⟨pinInsert_sorted h.1, fun e he => ?_⟩
  rcases mem_pinInsert he with rfl | he
  · exact p.isLt
  · exact h.2 e he

theorem pinId_toNat_ne {p q : PinId} (h : q ≠ p) : q.toNat ≠ p.toNat :=
  fun hq => h (BitVec.eq_of_toNat_eq hq)

@[simp] theorem dirOf_setDir_self (p : PinId) (d : Dir) (s : State) : dirOf p (setDir p d s) = d := by
  simp [dirOf, pinLookup_insert_self]

theorem dirOf_setDir_ne {p q : PinId} (h : q ≠ p) (d : Dir) (s : State) : dirOf q (setDir p d s) = dirOf q s := by
  simp [dirOf, pinLookup_insert_ne (pinId_toNat_ne h)]

@[simp] theorem latchOf_setDir (p q : PinId) (d : Dir) (s : State) : latchOf q (setDir p d s) = latchOf q s := rfl

@[simp] theorem latchOf_setLatch_self (p : PinId) (l : Latch) (s : State) : latchOf p (setLatch p l s) = l := by
  simp [latchOf, pinLookup_insert_self]

theorem latchOf_setLatch_ne {p q : PinId} (h : q ≠ p) (l : Latch) (s : State) :
    latchOf q (setLatch p l s) = latchOf q s := by
  simp [latchOf, pinLookup_insert_ne (pinId_toNat_ne h)]

@[simp] theorem dirOf_setLatch (p q : PinId) (l : Latch) (s : State) : dirOf q (setLatch p l s) = dirOf q s := rfl

/-- A pin's direction is read from the list of directions alone. -/
theorem dirOf_congr {p : PinId} {s t : State} (h : t.dirs = s.dirs) : dirOf p t = dirOf p s := by simp [dirOf, h]

/-- A pin's latch is read from the list of latches alone. -/
theorem latchOf_congr {p : PinId} {s t : State} (h : t.latches = s.latches) : latchOf p t = latchOf p s := by
  simp [latchOf, h]

end Sys2Proof.Machine
end

