-- ==== Sys2Proof/Laws/Sequences.lean ====
section
/-! SUPPORT. The sequences' lengths (R242) and where a byte stands in a segment write (R163). -/

namespace Sys2Proof.Machine

variable (c d : PinId) (pos : BitVec 3) (bm x : Byte) (bri : BitVec 3)

@[simp] theorem initSeq_length : (initSeq c d).length = 6 := rfl
@[simp] theorem startSeq_length : (startSeq d).length = 2 := rfl
@[simp] theorem stopSeq_length : (stopSeq c d).length = 6 := rfl
@[simp] theorem sendBit_length (b : Level) : (sendBit c d b).length = 6 := rfl
@[simp] theorem ackSeq_length : (ackSeq c d).length = 9 := rfl
@[simp] theorem sendByte_length : (sendByte c d x).length = 57 := by simp [sendByte]
@[simp] theorem t1_length : (t1 c d).length = 65 := by simp [t1]
@[simp] theorem t2_length : (t2 c d pos bm).length = 122 := by simp [t2]
@[simp] theorem t3_length : (t3 c d bri).length = 65 := by simp [t3]
@[simp] theorem writeSeq_length : (writeSeq c d pos bm bri).length = 252 := by simp [writeSeq]

/-- The part of a segment write that belongs to a byte is that byte's `SEND_BYTE` (R163). -/
theorem writeSeq_getElem?_of_roleAt {i : Nat} {role : ByteRole} (h : roleAt i = some role) :
    (writeSeq c d pos bm bri)[i]? = (sendByte c d (wireByte role pos bm bri))[i - byteStart role]? := by
  have key : ∀ (pre mid post : List Action) (n : Nat), pre.length = n → n ≤ i → i < n + mid.length →
      (pre ++ (mid ++ post))[i]? = mid[i - n]? := by
    intro pre mid post n hn h1 h2
    rw [List.getElem?_append_right (by omega), List.getElem?_append_left (by omega), hn]
  unfold roleAt at h
  split at h
  · next hi =>
    cases h
    have := key (startSeq d) (sendByte c d 0x44) (stopSeq c d ++ (t2 c d pos bm ++ t3 c d bri)) 2 (by simp) (by omega)
      (by simp; omega)
    simpa [writeSeq, t1, List.append_assoc, wireByte, byteStart] using this
  · split at h
    · next hi =>
      cases h
      have := key (t1 c d ++ startSeq d) (sendByte c d (addrByte pos)) (sendByte c d bm ++ (stopSeq c d ++ t3 c d bri)) 67
        (by simp) (by omega) (by simp; omega)
      simpa [writeSeq, t2, List.append_assoc, wireByte, byteStart] using this
    · split at h
      · next hi =>
        cases h
        have := key (t1 c d ++ (startSeq d ++ sendByte c d (addrByte pos))) (sendByte c d bm) (stopSeq c d ++ t3 c d bri) 124
          (by simp) (by omega) (by simp; omega)
        simpa [writeSeq, t2, List.append_assoc, wireByte, byteStart] using this
      · split at h
        · next hi =>
          cases h
          have := key (t1 c d ++ (t2 c d pos bm ++ startSeq d)) (sendByte c d (ctrlByte bri)) (stopSeq c d) 189
            (by simp) (by omega) (by simp; omega)
          simpa [writeSeq, t3, List.append_assoc, wireByte, byteStart] using this
        · cases h

/-- A byte's part begins at its start and holds 57 actions (R163). -/
theorem roleAt_eq_some_iff (i : Nat) (role : ByteRole) :
    roleAt i = some role ↔ byteStart role ≤ i ∧ i < byteStart role + 57 := by
  unfold roleAt byteStart
  cases role <;> (split_ifs <;> simp <;> omega)

/-! ### The actions a sequence is made of (R150) -/

/-- The kinds of action the engine emits: on CLK_PIN an output configuration and levels, on DIO_PIN every kind, and settle delays. -/
def OfSequence (a : Action) : Prop :=
  a = settle ∨ (∃ v, a = .set c v) ∨ (∃ v, a = .set d v) ∨ a = .get d ∨ a = .cfgOut d ∨ a = .cfgIn d ∨ a = .cfgOut c

theorem ofSequence_initSeq : ∀ a ∈ initSeq c d, OfSequence c d a := by
  intro a h
  simp only [initSeq, List.mem_cons, List.not_mem_nil, or_false] at h
  rcases h with rfl | rfl | rfl | rfl | rfl | rfl <;> simp [OfSequence]

theorem ofSequence_startSeq : ∀ a ∈ startSeq d, OfSequence c d a := by
  intro a h
  simp only [startSeq, List.mem_cons, List.not_mem_nil, or_false] at h
  rcases h with rfl | rfl <;> simp [OfSequence]

theorem ofSequence_stopSeq : ∀ a ∈ stopSeq c d, OfSequence c d a := by
  intro a h
  simp only [stopSeq, List.mem_cons, List.not_mem_nil, or_false] at h
  rcases h with rfl | rfl | rfl | rfl | rfl | rfl <;> simp [OfSequence]

theorem ofSequence_sendBit (b : Level) : ∀ a ∈ sendBit c d b, OfSequence c d a := by
  intro a h
  simp only [sendBit, List.mem_cons, List.not_mem_nil, or_false] at h
  rcases h with rfl | rfl | rfl | rfl | rfl | rfl <;> simp [OfSequence]

theorem ofSequence_ackSeq : ∀ a ∈ ackSeq c d, OfSequence c d a := by
  intro a h
  simp only [ackSeq, List.mem_cons, List.not_mem_nil, or_false] at h
  rcases h with rfl | rfl | rfl | rfl | rfl | rfl | rfl | rfl | rfl <;> simp [OfSequence]

theorem ofSequence_sendByte : ∀ a ∈ sendByte c d x, OfSequence c d a := by
  intro a h
  simp only [sendByte, List.mem_append] at h
  rcases h with h | h | h | h | h | h | h | h | h
  all_goals first
    | exact ofSequence_sendBit c d _ a h
    | exact ofSequence_ackSeq c d a h

theorem ofSequence_writeSeq : ∀ a ∈ writeSeq c d pos bm bri, OfSequence c d a := by
  intro a h
  simp only [writeSeq, t1, t2, t3, List.mem_append] at h
  rcases h with (h | h | h) | (h | h | h | h) | h | h | h
  all_goals first
    | exact ofSequence_startSeq c d a h
    | exact ofSequence_sendByte c d _ a h
    | exact ofSequence_stopSeq c d a h

end Sys2Proof.Machine
end

