-- ==== Sys2Proof/Laws/Ops.lean ====
section
/-! SUPPORT. The shared operations: what each leaves alone, field by field, and one lemma for each that says what it can do. -/

namespace Sys2Proof.Machine

/-! ### What `configured` leaves alone -/

@[simp] theorem configured_fsm (p : PinId) (d : Dir) (s : State) : (configured p d s).fsm = s.fsm := by
  unfold configured; split <;> rfl

@[simp] theorem configured_op (p : PinId) (d : Dir) (s : State) : (configured p d s).op = s.op := by
  unfold configured; split <;> rfl

@[simp] theorem configured_seqIdx (p : PinId) (d : Dir) (s : State) : (configured p d s).seqIdx = s.seqIdx := by
  unfold configured; split <;> rfl

@[simp] theorem configured_clkPin (p : PinId) (d : Dir) (s : State) : (configured p d s).clkPin = s.clkPin := by
  unfold configured; split <;> rfl

@[simp] theorem configured_dioPin (p : PinId) (d : Dir) (s : State) : (configured p d s).dioPin = s.dioPin := by
  unfold configured; split <;> rfl

@[simp] theorem configured_brightness (p : PinId) (d : Dir) (s : State) : (configured p d s).brightness = s.brightness := by
  unfold configured; split <;> rfl

@[simp] theorem configured_position (p : PinId) (d : Dir) (s : State) : (configured p d s).position = s.position := by
  unfold configured; split <;> rfl

@[simp] theorem configured_bitmap (p : PinId) (d : Dir) (s : State) : (configured p d s).bitmap = s.bitmap := by
  unfold configured; split <;> rfl

@[simp] theorem configured_ackLog (p : PinId) (d : Dir) (s : State) : (configured p d s).ackLog = s.ackLog := by
  unfold configured; split <;> rfl

@[simp] theorem configured_faultCause (p : PinId) (d : Dir) (s : State) : (configured p d s).faultCause = s.faultCause := by
  unfold configured; split <;> rfl

@[simp] theorem configured_faultInfo (p : PinId) (d : Dir) (s : State) : (configured p d s).faultInfo = s.faultInfo := by
  unfold configured; split <;> rfl

@[simp] theorem configured_outstanding (p : PinId) (d : Dir) (s : State) : (configured p d s).outstanding = s.outstanding := by
  unfold configured; split <;> rfl

@[simp] theorem configured_hung (p : PinId) (d : Dir) (s : State) : (configured p d s).hung = s.hung := by
  unfold configured; split <;> rfl

@[simp] theorem configured_latches (p : PinId) (d : Dir) (s : State) : (configured p d s).latches = s.latches := by
  unfold configured; split <;> rfl

@[simp] theorem configured_encIdx (p : PinId) (d : Dir) (s : State) : (configured p d s).encIdx = s.encIdx := by
  unfold configured; split <;> rfl

@[simp] theorem configured_encDot (p : PinId) (d : Dir) (s : State) : (configured p d s).encDot = s.encDot := by
  unfold configured; split <;> rfl

@[simp] theorem configured_trace (p : PinId) (d : Dir) (s : State) : (configured p d s).trace = s.trace := by
  unfold configured; split <;> rfl

@[simp] theorem configured_host (p : PinId) (d : Dir) (s : State) : (configured p d s).host = s.host := by
  unfold configured; split <;> rfl

@[simp] theorem configured_rdData (p : PinId) (d : Dir) (s : State) : (configured p d s).rdData = s.rdData := by
  unfold configured; split <;> rfl

@[simp] theorem configured_initWritten (p : PinId) (d : Dir) (s : State) : (configured p d s).initWritten = s.initWritten := by
  unfold configured; split <;> rfl

@[simp] theorem configured_events (p : PinId) (d : Dir) (s : State) : (configured p d s).events = s.events := by
  unfold configured; split <;> rfl

@[simp] theorem configured_levelScript (p : PinId) (d : Dir) (s : State) : (configured p d s).levelScript = s.levelScript := by
  unfold configured; split <;> rfl

@[simp] theorem configured_levelDraws (p : PinId) (d : Dir) (s : State) : (configured p d s).levelDraws = s.levelDraws := by
  unfold configured; split <;> rfl

/-! ### What `applied` leaves alone -/

@[simp] theorem applied_fsm (a : Action) (s : State) : (applied a s).fsm = s.fsm := by
  cases a <;> simp [applied]
  split <;> rfl

@[simp] theorem applied_op (a : Action) (s : State) : (applied a s).op = s.op := by
  cases a <;> simp [applied]
  split <;> rfl

@[simp] theorem applied_seqIdx (a : Action) (s : State) : (applied a s).seqIdx = s.seqIdx := by
  cases a <;> simp [applied]
  split <;> rfl

@[simp] theorem applied_clkPin (a : Action) (s : State) : (applied a s).clkPin = s.clkPin := by
  cases a <;> simp [applied]
  split <;> rfl

@[simp] theorem applied_dioPin (a : Action) (s : State) : (applied a s).dioPin = s.dioPin := by
  cases a <;> simp [applied]
  split <;> rfl

@[simp] theorem applied_brightness (a : Action) (s : State) : (applied a s).brightness = s.brightness := by
  cases a <;> simp [applied]
  split <;> rfl

@[simp] theorem applied_position (a : Action) (s : State) : (applied a s).position = s.position := by
  cases a <;> simp [applied]
  split <;> rfl

@[simp] theorem applied_bitmap (a : Action) (s : State) : (applied a s).bitmap = s.bitmap := by
  cases a <;> simp [applied]
  split <;> rfl

@[simp] theorem applied_ackLog (a : Action) (s : State) : (applied a s).ackLog = s.ackLog := by
  cases a <;> simp [applied]
  split <;> rfl

@[simp] theorem applied_faultCause (a : Action) (s : State) : (applied a s).faultCause = s.faultCause := by
  cases a <;> simp [applied]
  split <;> rfl

@[simp] theorem applied_faultInfo (a : Action) (s : State) : (applied a s).faultInfo = s.faultInfo := by
  cases a <;> simp [applied]
  split <;> rfl

@[simp] theorem applied_outstanding (a : Action) (s : State) : (applied a s).outstanding = s.outstanding := by
  cases a <;> simp [applied]
  split <;> rfl

@[simp] theorem applied_hung (a : Action) (s : State) : (applied a s).hung = s.hung := by
  cases a <;> simp [applied]
  split <;> rfl

@[simp] theorem applied_encIdx (a : Action) (s : State) : (applied a s).encIdx = s.encIdx := by
  cases a <;> simp [applied]
  split <;> rfl

@[simp] theorem applied_encDot (a : Action) (s : State) : (applied a s).encDot = s.encDot := by
  cases a <;> simp [applied]
  split <;> rfl

@[simp] theorem applied_trace (a : Action) (s : State) : (applied a s).trace = s.trace := by
  cases a <;> simp [applied]
  split <;> rfl

@[simp] theorem applied_host (a : Action) (s : State) : (applied a s).host = s.host := by
  cases a <;> simp [applied]
  split <;> rfl

@[simp] theorem applied_rdData (a : Action) (s : State) : (applied a s).rdData = s.rdData := by
  cases a <;> simp [applied]
  split <;> rfl

@[simp] theorem applied_initWritten (a : Action) (s : State) : (applied a s).initWritten = s.initWritten := by
  cases a <;> simp [applied]
  split <;> rfl

@[simp] theorem applied_events (a : Action) (s : State) : (applied a s).events = s.events := by
  cases a <;> simp [applied]
  split <;> rfl

/-! ### What `finish` leaves alone -/

@[simp] theorem finish_op (s : State) : (finish s).op = s.op := by
  unfold finish; split <;> rfl

@[simp] theorem finish_clkPin (s : State) : (finish s).clkPin = s.clkPin := by
  unfold finish; split <;> rfl

@[simp] theorem finish_dioPin (s : State) : (finish s).dioPin = s.dioPin := by
  unfold finish; split <;> rfl

@[simp] theorem finish_brightness (s : State) : (finish s).brightness = s.brightness := by
  unfold finish; split <;> rfl

@[simp] theorem finish_position (s : State) : (finish s).position = s.position := by
  unfold finish; split <;> rfl

@[simp] theorem finish_bitmap (s : State) : (finish s).bitmap = s.bitmap := by
  unfold finish; split <;> rfl

@[simp] theorem finish_ackLog (s : State) : (finish s).ackLog = s.ackLog := by
  unfold finish; split <;> rfl

@[simp] theorem finish_faultCause (s : State) : (finish s).faultCause = s.faultCause := by
  unfold finish; split <;> rfl

@[simp] theorem finish_faultInfo (s : State) : (finish s).faultInfo = s.faultInfo := by
  unfold finish; split <;> rfl

@[simp] theorem finish_outstanding (s : State) : (finish s).outstanding = s.outstanding := by
  unfold finish; split <;> rfl

@[simp] theorem finish_hung (s : State) : (finish s).hung = s.hung := by
  unfold finish; split <;> rfl

@[simp] theorem finish_dirs (s : State) : (finish s).dirs = s.dirs := by
  unfold finish; split <;> rfl

@[simp] theorem finish_latches (s : State) : (finish s).latches = s.latches := by
  unfold finish; split <;> rfl

@[simp] theorem finish_encIdx (s : State) : (finish s).encIdx = s.encIdx := by
  unfold finish; split <;> rfl

@[simp] theorem finish_encDot (s : State) : (finish s).encDot = s.encDot := by
  unfold finish; split <;> rfl

@[simp] theorem finish_trace (s : State) : (finish s).trace = s.trace := by
  unfold finish; split <;> rfl

@[simp] theorem finish_host (s : State) : (finish s).host = s.host := by
  unfold finish; split <;> rfl

@[simp] theorem finish_rdData (s : State) : (finish s).rdData = s.rdData := by
  unfold finish; split <;> rfl

@[simp] theorem finish_initWritten (s : State) : (finish s).initWritten = s.initWritten := by
  unfold finish; split <;> rfl

@[simp] theorem finish_events (s : State) : (finish s).events = s.events := by
  unfold finish; split <;> rfl

@[simp] theorem finish_cfgScript (s : State) : (finish s).cfgScript = s.cfgScript := by
  unfold finish; split <;> rfl

@[simp] theorem finish_levelScript (s : State) : (finish s).levelScript = s.levelScript := by
  unfold finish; split <;> rfl

@[simp] theorem finish_cfgDraws (s : State) : (finish s).cfgDraws = s.cfgDraws := by
  unfold finish; split <;> rfl

@[simp] theorem finish_levelDraws (s : State) : (finish s).levelDraws = s.levelDraws := by
  unfold finish; split <;> rfl

/-! ### What `onResponse` leaves alone -/

@[simp] theorem onResponse_op (r : Response) (s : State) : (onResponse r s).op = s.op := by
  unfold onResponse; split <;> simp

@[simp] theorem onResponse_clkPin (r : Response) (s : State) : (onResponse r s).clkPin = s.clkPin := by
  unfold onResponse; split <;> simp

@[simp] theorem onResponse_dioPin (r : Response) (s : State) : (onResponse r s).dioPin = s.dioPin := by
  unfold onResponse; split <;> simp

@[simp] theorem onResponse_brightness (r : Response) (s : State) : (onResponse r s).brightness = s.brightness := by
  unfold onResponse; split <;> simp

@[simp] theorem onResponse_position (r : Response) (s : State) : (onResponse r s).position = s.position := by
  unfold onResponse; split <;> simp

@[simp] theorem onResponse_bitmap (r : Response) (s : State) : (onResponse r s).bitmap = s.bitmap := by
  unfold onResponse; split <;> simp

@[simp] theorem onResponse_outstanding (r : Response) (s : State) : (onResponse r s).outstanding = s.outstanding := by
  unfold onResponse; split <;> simp

@[simp] theorem onResponse_hung (r : Response) (s : State) : (onResponse r s).hung = s.hung := by
  unfold onResponse; split <;> simp

@[simp] theorem onResponse_dirs (r : Response) (s : State) : (onResponse r s).dirs = s.dirs := by
  unfold onResponse; split <;> simp

@[simp] theorem onResponse_latches (r : Response) (s : State) : (onResponse r s).latches = s.latches := by
  unfold onResponse; split <;> simp

@[simp] theorem onResponse_encIdx (r : Response) (s : State) : (onResponse r s).encIdx = s.encIdx := by
  unfold onResponse; split <;> simp

@[simp] theorem onResponse_encDot (r : Response) (s : State) : (onResponse r s).encDot = s.encDot := by
  unfold onResponse; split <;> simp

@[simp] theorem onResponse_trace (r : Response) (s : State) : (onResponse r s).trace = s.trace := by
  unfold onResponse; split <;> simp

@[simp] theorem onResponse_host (r : Response) (s : State) : (onResponse r s).host = s.host := by
  unfold onResponse; split <;> simp

@[simp] theorem onResponse_rdData (r : Response) (s : State) : (onResponse r s).rdData = s.rdData := by
  unfold onResponse; split <;> simp

@[simp] theorem onResponse_initWritten (r : Response) (s : State) : (onResponse r s).initWritten = s.initWritten := by
  unfold onResponse; split <;> simp

@[simp] theorem onResponse_events (r : Response) (s : State) : (onResponse r s).events = s.events := by
  unfold onResponse; split <;> simp

@[simp] theorem onResponse_cfgScript (r : Response) (s : State) : (onResponse r s).cfgScript = s.cfgScript := by
  unfold onResponse; split <;> simp

@[simp] theorem onResponse_levelScript (r : Response) (s : State) : (onResponse r s).levelScript = s.levelScript := by
  unfold onResponse; split <;> simp

@[simp] theorem onResponse_cfgDraws (r : Response) (s : State) : (onResponse r s).cfgDraws = s.cfgDraws := by
  unfold onResponse; split <;> simp

@[simp] theorem onResponse_levelDraws (r : Response) (s : State) : (onResponse r s).levelDraws = s.levelDraws := by
  unfold onResponse; split <;> simp

/-! ### What `answer` leaves alone; afterwards nothing is outstanding -/

@[simp] theorem answer_op (a : Action) (s : State) : (answer a s).op = s.op := by
  simp [answer]

@[simp] theorem answer_clkPin (a : Action) (s : State) : (answer a s).clkPin = s.clkPin := by
  simp [answer]

@[simp] theorem answer_dioPin (a : Action) (s : State) : (answer a s).dioPin = s.dioPin := by
  simp [answer]

@[simp] theorem answer_brightness (a : Action) (s : State) : (answer a s).brightness = s.brightness := by
  simp [answer]

@[simp] theorem answer_position (a : Action) (s : State) : (answer a s).position = s.position := by
  simp [answer]

@[simp] theorem answer_bitmap (a : Action) (s : State) : (answer a s).bitmap = s.bitmap := by
  simp [answer]

@[simp] theorem answer_encIdx (a : Action) (s : State) : (answer a s).encIdx = s.encIdx := by
  simp [answer]

@[simp] theorem answer_encDot (a : Action) (s : State) : (answer a s).encDot = s.encDot := by
  simp [answer]

@[simp] theorem answer_trace (a : Action) (s : State) : (answer a s).trace = s.trace := by
  simp [answer]

@[simp] theorem answer_hung (a : Action) (s : State) : (answer a s).hung = s.hung := by
  simp [answer]

@[simp] theorem answer_host (a : Action) (s : State) : (answer a s).host = s.host := by
  simp [answer]

@[simp] theorem answer_rdData (a : Action) (s : State) : (answer a s).rdData = s.rdData := by
  simp [answer]

@[simp] theorem answer_initWritten (a : Action) (s : State) : (answer a s).initWritten = s.initWritten := by
  simp [answer]

@[simp] theorem answer_events (a : Action) (s : State) : (answer a s).events = s.events := by
  simp [answer]

@[simp] theorem answer_outstanding (a : Action) (s : State) : (answer a s).outstanding = none := by
  simp [answer]

@[simp] theorem answer_dirs (a : Action) (s : State) : (answer a s).dirs = (applied a s).dirs := by
  simp [answer]

@[simp] theorem answer_latches (a : Action) (s : State) : (answer a s).latches = (applied a s).latches := by
  simp [answer]

@[simp] theorem answer_cfgScript (a : Action) (s : State) : (answer a s).cfgScript = (applied a s).cfgScript := by
  simp [answer]

@[simp] theorem answer_levelScript (a : Action) (s : State) : (answer a s).levelScript = (applied a s).levelScript := by
  simp [answer]

@[simp] theorem answer_cfgDraws (a : Action) (s : State) : (answer a s).cfgDraws = (applied a s).cfgDraws := by
  simp [answer]

@[simp] theorem answer_levelDraws (a : Action) (s : State) : (answer a s).levelDraws = (applied a s).levelDraws := by
  simp [answer]

/-! ### What the collaborators do -/

theorem configured_dirs (p : PinId) (d : Dir) (s : State) :
    (configured p d s).dirs = if cfgAnswer s = .ok then pinInsert p.toNat d s.dirs else s.dirs := by
  unfold configured; split <;> simp_all

/-- All an action does to the directions. -/
theorem applied_dirs (a : Action) (s : State) :
    (applied a s).dirs =
      match a with
      | .cfgOut p => if cfgAnswer s = .ok then pinInsert p.toNat .out s.dirs else s.dirs
      | .cfgIn p => if cfgAnswer s = .ok then pinInsert p.toNat .input s.dirs else s.dirs
      | .set _ _ => s.dirs
      | .get _ => s.dirs
      | .delay _ => s.dirs := by
  cases a <;> simp [applied, configured_dirs]
  split <;> rfl

/-- All an action does to the latches. -/
theorem applied_latches (a : Action) (s : State) :
    (applied a s).latches =
      match a with
      | .cfgOut _ => s.latches
      | .cfgIn _ => s.latches
      | .set p v => pinInsert p.toNat (latchOfLevel v) s.latches
      | .get _ => s.latches
      | .delay _ => s.latches := by
  cases a <;> simp [applied]
  split <;> rfl

theorem applied_dirs_wf {a : Action} {s : State} (h : PinMap.wf s.dirs) : PinMap.wf (applied a s).dirs := by
  rw [applied_dirs]
  cases a <;> dsimp only <;> (try split) <;> first | exact pinInsert_wf _ _ h | exact h

theorem applied_latches_wf {a : Action} {s : State} (h : PinMap.wf s.latches) : PinMap.wf (applied a s).latches := by
  rw [applied_latches]
  cases a <;> first | exact pinInsert_wf _ _ h | exact h

/-! ### The running sequence -/

/-- The running sequence is read from the registers alone (R24). -/
theorem curSeq_congr {s t : State} (ho : t.op = s.op) (hc : t.clkPin = s.clkPin) (hd : t.dioPin = s.dioPin)
    (hp : t.position = s.position) (hb : t.bitmap = s.bitmap) (hbr : t.brightness = s.brightness) :
    curSeq t = curSeq s := by
  simp [curSeq, ho, hc, hd, hp, hb, hbr]

theorem curSeq_length (s : State) : (curSeq s).length = match s.op with | .init => 6 | .write => 252 := by
  unfold curSeq; split <;> simp [*]

@[simp] theorem curSeq_received (s : State) : curSeq (received s) = curSeq s := rfl
@[simp] theorem curSeq_logAck (v : Bool) (s : State) : curSeq (logAck v s) = curSeq s := rfl
@[simp] theorem curSeq_issue (a : Action) (s : State) : curSeq (issue a s) = curSeq s := rfl
@[simp] theorem curSeq_popHost (s : State) : curSeq (popHost s) = curSeq s := rfl
@[simp] theorem curSeq_noteOp (op : HostOp) (s : State) : curSeq (noteOp op s) = curSeq s := rfl
@[simp] theorem curSeq_hang (s : State) : curSeq (hang s) = curSeq s := rfl
@[simp] theorem curSeq_elapse (s : State) : curSeq (elapse s) = curSeq s := rfl
@[simp] theorem curSeq_applied (a : Action) (s : State) : curSeq (applied a s) = curSeq s :=
  curSeq_congr (by simp) (by simp) (by simp) (by simp) (by simp) (by simp)
@[simp] theorem curSeq_answer (a : Action) (s : State) : curSeq (answer a s) = curSeq s :=
  curSeq_congr (by simp) (by simp) (by simp) (by simp) (by simp) (by simp)

/-- Every action of the running sequence is on the engine's two pins or a delay (R150). -/
theorem curSeq_ofSequence {s : State} {a : Action} {i : Nat} (h : (curSeq s)[i]? = some a) :
    OfSequence s.clkPin s.dioPin a := by
  have hm := List.mem_of_getElem? h
  unfold curSeq at hm
  split at hm
  · exact ofSequence_initSeq _ _ a hm
  · exact ofSequence_writeSeq _ _ _ _ _ a hm

/-- An action of the running sequence leaves every pin but CLK_PIN and DIO_PIN (R33, R66). -/
theorem applied_other_pin {s : State} {a : Action} {i : Nat} {p : PinId} (h : (curSeq s)[i]? = some a)
    (hc : p ≠ s.clkPin) (hd : p ≠ s.dioPin) :
    dirOf p (applied a s) = dirOf p s ∧ latchOf p (applied a s) = latchOf p s := by
  simp only [dirOf, latchOf, applied_dirs, applied_latches]
  have h1 := pinId_toNat_ne hc
  have h2 := pinId_toNat_ne hd
  rcases curSeq_ofSequence h with rfl | ⟨v, rfl⟩ | ⟨v, rfl⟩ | rfl | rfl | rfl | rfl <;> simp only [settle, and_self] <;>
    (try split) <;> simp [pinLookup_insert_ne, h1, h2]

theorem finish_fsm (s : State) :
    (finish s).fsm = if s.seqIdx.toNat + 1 = (curSeq s).length then .idle else s.fsm := by
  unfold finish; split <;> simp

theorem finish_seqIdx (s : State) :
    (finish s).seqIdx = if s.seqIdx.toNat + 1 = (curSeq s).length then 0 else s.seqIdx + 1 := by
  unfold finish; split <;> simp

/-- The answer is a failed pin configuration. -/
theorem respond_eq_fail_iff (a : Action) (s : State) :
    respond a s = .cfg .fail ↔ ((∃ p, a = .cfgOut p) ∨ ∃ p, a = .cfgIn p) ∧ cfgAnswer s = .fail := by
  cases a <;> simp [respond]

/-- All the engine does with a response that is no failure (R121, R122). -/
theorem answer_of_ne_fail {a : Action} {s : State} (h : respond a s ≠ .cfg .fail) :
    (answer a s).faultCause = s.faultCause ∧ (answer a s).faultInfo = s.faultInfo ∧
      (answer a s).fsm = (if s.seqIdx.toNat + 1 = (curSeq s).length then .idle else s.fsm) ∧
      (answer a s).seqIdx = (if s.seqIdx.toNat + 1 = (curSeq s).length then 0 else s.seqIdx + 1) ∧
      (answer a s).ackLog = (match respond a s with | .level b => ackAfter s.seqIdx (!b) s.ackLog | _ => s.ackLog) := by
  unfold answer
  rcases hr : respond a s with r | _ | b
  · cases r with
    | ok => simp [onResponse, finish_fsm, finish_seqIdx]
    | fail => exact absurd hr h
  · simp [onResponse, finish_fsm, finish_seqIdx]
  · simp [onResponse, finish_fsm, finish_seqIdx]

/-- All the engine does with a failed pin configuration (R121, R202, R204, R205). -/
theorem answer_of_fail {a : Action} {s : State} (h : respond a s = .cfg .fail) :
    (answer a s).faultCause = runCause s.op ∧ (answer a s).faultInfo = runInfo s ∧ (answer a s).fsm = .fault ∧
      (answer a s).seqIdx = s.seqIdx ∧ (answer a s).ackLog = s.ackLog ∧
      (answer a s).dirs = s.dirs ∧ (answer a s).latches = s.latches := by
  have ha := (respond_eq_fail_iff a s).1 h
  refine ⟨?_, ?_, ?_, ?_, ?_, ?_, ?_⟩ <;> simp [answer, h, onResponse, runInfo]
  · rcases ha with ⟨⟨p, rfl⟩ | ⟨p, rfl⟩, hf⟩ <;> simp [applied_dirs, hf]
  · rcases ha with ⟨⟨p, rfl⟩ | ⟨p, rfl⟩, hf⟩ <;> simp [applied_latches]

/-- All a move of a sequence does: the answer, the issue, or no action to issue. -/
theorem moveWith_cases (n : Option Action) (s : State) :
    (∃ a, s.outstanding = some a ∧ moveWith n s = .next (answer a s)) ∨
      (∃ a, s.outstanding = none ∧ n = some a ∧ moveWith n s = .next (issue a s)) ∨
      (s.outstanding = none ∧ n = none ∧ moveWith n s = .fault .noAction) := by
  unfold moveWith
  rcases s.outstanding with _ | a <;> rcases n with _ | b <;> simp

/-- In its place a wire byte's move is the sequencer's move (R121, R163). -/
theorem byteMove_eq_sequencerMove {role : ByteRole} {s : State} (hf : s.fsm = .busy) (ho : s.op = .write)
    (hr : roleAt s.seqIdx.toNat = some role) :
    byteMove role (wireByte role s.position s.bitmap s.brightness) s = sequencerMove s := by
  simp [byteMove, sequencerMove, hf, ho, hr, curSeq, writeSeq_getElem?_of_roleAt (h := hr)]

/-! ### What the host reads, and the lines -/

/-- STATUS.STATE is the code of FSM (R28). -/
theorem statusWord_state (s : State) : (statusWord s).extractLsb' 0 2 = stateCode s.fsm := by
  apply BitVec.eq_of_getLsbD_eq
  intro i hi
  simp only [statusWord, BitVec.getLsbD_extractLsb', BitVec.getLsbD_append, hi, decide_true, Bool.true_and]
  split_ifs <;> first | omega | (congr 1; omega)

/-- `line(p)` is what the pin drives, or else the outside world's (R34). -/
theorem lineOf_eq (p : PinId) (out : Level) (s : State) : lineOf p out s = (drivenLevel p s).getD out := rfl

/-! ### Acceptance -/

theorem accept_of_ready {s : State} (h : s.fsm = .uninit ∨ s.fsm = .idle) (w : Word) (f : State → State) :
    accept w f s = .next (checked w f s) := by
  rcases h with h | h <;> simp [accept, h]

theorem accept_of_busy {s : State} (h : s.fsm = .busy) (w : Word) (f : State → State) : accept w f s = .next s := by
  simp [accept, h]

theorem accept_of_fault {s : State} (h : s.fsm = .fault) (w : Word) (f : State → State) : accept w f s = .next s := by
  simp [accept, h]

theorem cmdWord_init_fields (c d : PinId) :
    opcOf (cmdWordOf (.init c d)) = 0x01 ∧ bits23to16 (cmdWordOf (.init c d)) = 0 ∧
      bits15to8 (cmdWordOf (.init c d)) = c ∧ bits7to0 (cmdWordOf (.init c d)) = d :=
  append4_fields 0x01#8 0x00#8 c d

theorem cmdWord_setBrightness_fields (l : Byte) :
    opcOf (cmdWordOf (.setBrightness l)) = 0x02 ∧ bits23to8 (cmdWordOf (.setBrightness l)) = 0 ∧
      bits7to0 (cmdWordOf (.setBrightness l)) = l :=
  append3_fields 0x02#8 0x0000#16 l

theorem cmdWord_writeSegmentRaw_fields (p b : Byte) :
    opcOf (cmdWordOf (.writeSegmentRaw p b)) = 0x03 ∧ bits23to16 (cmdWordOf (.writeSegmentRaw p b)) = 0 ∧
      bits15to8 (cmdWordOf (.writeSegmentRaw p b)) = p ∧ bits7to0 (cmdWordOf (.writeSegmentRaw p b)) = b :=
  append4_fields 0x03#8 0x00#8 p b

theorem check_init (P : Params) (f : Fsm) (c d : PinId) :
    check P f (cmdWordOf (.init c d)) = if c = d then .pinConflict else .noFault := by
  simp [check, cmdWord_init_fields]

theorem check_setBrightness (P : Params) (f : Fsm) (l : Byte) :
    check P f (cmdWordOf (.setBrightness l)) = if f = .uninit then .notInit else .noFault := by
  simp [check, cmdWord_setBrightness_fields]

theorem check_writeSegmentRaw (P : Params) (f : Fsm) (p b : Byte) :
    check P f (cmdWordOf (.writeSegmentRaw p b)) =
      if f = .uninit then .notInit else if P.nDigits ≤ p.toNat then .posRange else .noFault := by
  simp [check, cmdWord_writeSegmentRaw_fields]

theorem legalInit_init (c d : PinId) : legalInit (cmdWordOf (.init c d)) = decide (c ≠ d) := by
  rw [legalInit, check_init]
  split <;> simp_all

theorem legalInit_setBrightness (l : Byte) : legalInit (cmdWordOf (.setBrightness l)) = false := by
  simp [legalInit, check_setBrightness]

theorem legalInit_writeSegmentRaw (p b : Byte) : legalInit (cmdWordOf (.writeSegmentRaw p b)) = false := by
  simp [legalInit, check_writeSegmentRaw]

/-- `Check` finds ILLEGAL_CMD exactly in the words the decoder refuses (R95, R201). -/
theorem check_illegal_iff (P : Params) (f : Fsm) (w : Word) :
    check P f w = .illegalCmd ↔ ∃ e, decodeCmd w = .error e := by
  unfold check decodeCmd
  constructor
  · intro h
    by_contra hne
    split_ifs at h hne <;> simp_all
  · rintro ⟨e, h⟩
    split_ifs at h <;> simp_all

end Sys2Proof.Machine
end

