-- ==== Sys2Proof/Laws/Inv.lean ====
section
/-! SUPPORT. What the machine's invariant reads, so that a proof about it compares fields and unfolds no operation. -/

namespace Sys2Proof.Machine

/-- The invariant reads only the engine's registers, its outstanding action, the pins and whether a legal INIT was written: it passes
from a state to any other that agrees on them. -/
theorem State.Inv.of_same {s t : State} (I : s.Inv) (hd : t.dirs = s.dirs) (hl : t.latches = s.latches) (hf : t.fsm = s.fsm) (ho : t.op = s.op)
    (hi : t.seqIdx = s.seqIdx) (hc : t.clkPin = s.clkPin) (hdp : t.dioPin = s.dioPin) (hb : t.brightness = s.brightness)
    (hp : t.position = s.position) (hbm : t.bitmap = s.bitmap) (hfc : t.faultCause = s.faultCause) (hfi : t.faultInfo = s.faultInfo)
    (hout : t.outstanding = s.outstanding) (hh : t.hung = s.hung) (hw : s.initWritten = true → t.initWritten = true) : t.Inv := by
  have hq := curSeq_congr ho hc hdp hp hbm hb
  constructor
  · rw [hd]; exact I.dirs_wf
  · rw [hl]; exact I.latches_wf
  · rw [hp]; exact I.position_lt
  · rw [hf, hi]; exact I.idx_rest
  · rw [hf, hi, hq]; exact I.idx_busy
  · rw [hf, hi, hq, hout]; exact I.outstanding_is
  · rw [hh, hout]; exact I.hung_is
  · rw [hf, hfc]; exact I.cause_iff
  · rw [hfc, hfi]; exact I.info_zero
  · rw [hf, hc, hdp]; exact I.pins_differ
  · rw [hf]; exact fun h => hw (I.init_written h)

end Sys2Proof.Machine
end

