-- ==== Sys2Proof/Laws/Turn.lean ====
section
/-! SUPPORT. Once and for all what a step can do: `step_cases` is the inversion that later proofs cite instead of unfolding `step`. -/

namespace Sys2Proof.Machine

/-! ### The engine's move -/

/-- The wire byte's instruction in its place is one move of the sequencer (R121, R163). -/
theorem exec_byteInstrOf (role : ByteRole) (pos : BitVec 3) (bm : Byte) (bri : BitVec 3) (s : State) :
    exec (byteInstrOf role pos bm bri) s = byteMove role (wireByte role pos bm bri) s := by
  cases role <;> rfl

theorem byteInstr_eq (s : State) :
    byteInstr s = match s.op, roleAt s.seqIdx.toNat with
      | .write, some role => some (byteInstrOf role s.position s.bitmap s.brightness)
      | .write, none => none
      | .init, _ => none := by
  unfold byteInstr
  split <;> simp_all [decode, decodeWire_wireByte, Except.toOption]

/-- In BUSY, but for a hang, every move of the engine is a move of the sequencer (R121), whether or not it is inside a wire byte. -/
theorem engineMove_of_busy {s : State} (h : s.fsm = .busy) (hh : s.hung = false) : engineMove s = sequencerMove s := by
  unfold engineMove
  rw [if_pos ⟨h, hh⟩, byteInstr_eq]
  rcases ho : s.op with _ | _
  · rfl
  · rcases hr : roleAt s.seqIdx.toNat with _ | role
    · rfl
    · simp only [exec_byteInstrOf]
      exact byteMove_eq_sequencerMove h ho hr

theorem engineMove_of_still {s : State} (h : s.fsm ≠ .busy ∨ s.hung = true) : engineMove s = .next s := by
  rcases h with h | h <;> simp [engineMove, h]

/-! ### The host's move -/

theorem dueHost_popEvent (s : State) : dueHost (popEvent s) = dueHost s := rfl

theorem execInit_of_ready {s : State} (h : s.fsm = .uninit ∨ s.fsm = .idle) (c d : PinId) :
    exec (.init c d) s =
      .next (if c = d then raiseFault .pinConflict (cmdWordOf (.init c d)) s else performInit c d s) := by
  simp only [exec, execInit, accept_of_ready h, checked, check_init]
  split <;> simp

theorem execSetBrightness_of_ready {s : State} (h : s.fsm = .uninit ∨ s.fsm = .idle) (l : Byte) :
    exec (.setBrightness l) s =
      .next (if s.fsm = .uninit then raiseFault .notInit (cmdWordOf (.setBrightness l)) s
        else performSetBrightness l s) := by
  simp only [exec, execSetBrightness, accept_of_ready h, checked, check_setBrightness]
  split <;> simp

theorem execWriteSegmentRaw_of_ready {s : State} (h : s.fsm = .uninit ∨ s.fsm = .idle) (p b : Byte) :
    exec (.writeSegmentRaw p b) s =
      .next (if s.fsm = .uninit then raiseFault .notInit (cmdWordOf (.writeSegmentRaw p b)) s
        else if hw.nDigits ≤ p.toNat then raiseFault .posRange (cmdWordOf (.writeSegmentRaw p b)) s
        else performWriteSegmentRaw p b s) := by
  simp only [exec, execWriteSegmentRaw, accept_of_ready h, checked, check_writeSegmentRaw]
  split_ifs <;> simp_all

theorem writeIllegal_of_ready {s : State} (h : s.fsm = .uninit ∨ s.fsm = .idle) {w : Word} {e : DecodeError}
    (he : decodeCmd w = .error e) : writeIllegal w s = .next (raiseFault .illegalCmd w s) := by
  simp [writeIllegal, accept_of_ready h, checked, (check_illegal_iff hw s.fsm w).2 ⟨e, he⟩]

/-- The decoder gives a command word back as one of the three commands, with that word (R91 to R94). -/
theorem decodeCmd_ok {w : Word} {i : Instr} (h : decodeCmd w = .ok i) :
    cmdWordOf i = w ∧ ((∃ c d, i = .init c d) ∨ (∃ l, i = .setBrightness l) ∨ ∃ p b, i = .writeSegmentRaw p b) := by
  unfold decodeCmd at h
  split_ifs at h with h1 h2 h3 h4 h5 h6 <;> cases h
  · refine ⟨?_, .inl ⟨_, _, rfl⟩⟩
    conv_rhs => rw [← word_bytes w, h1, h2]
    rfl
  · refine ⟨?_, .inr (.inl ⟨_, rfl⟩)⟩
    conv_rhs => rw [← word_parts w, h3, h4]
    rfl
  · refine ⟨?_, .inr (.inr ⟨_, _, rfl⟩)⟩
    conv_rhs => rw [← word_bytes w, h5, h6]
    rfl

/-- All a CMD write does in UNINIT or IDLE (R120): a fault of acceptance, or one of the three commands performed. -/
theorem writeCmd_of_ready {s : State} (h : s.fsm = .uninit ∨ s.fsm = .idle) (w : Word) :
    ∃ t, writeCmd w s = .next t ∧
      ((∃ c, (c = .illegalCmd ∨ c = .notInit ∨ c = .posRange ∨ c = .pinConflict) ∧ t = raiseFault c w s) ∨
        (∃ c d, c ≠ d ∧ legalInit w = true ∧ t = performInit c d s) ∨
        (s.fsm = .idle ∧ ∃ l, t = performSetBrightness l s) ∨
        (s.fsm = .idle ∧ ∃ p b, p.toNat < hw.nDigits ∧ t = performWriteSegmentRaw p b s)) := by
  unfold writeCmd
  simp only [decode]
  rcases hd : decodeCmd w with e | i
  · exact ⟨_, writeIllegal_of_ready h hd, .inl ⟨_, .inl rfl, rfl⟩⟩
  · obtain ⟨hw', ⟨c, d, rfl⟩ | ⟨l, rfl⟩ | ⟨p, b, rfl⟩⟩ := decodeCmd_ok hd
    · refine ⟨_, execInit_of_ready h c d, ?_⟩
      split
      · exact .inl ⟨.pinConflict, by simp, by rw [hw']⟩
      · next hcd => exact .inr (.inl ⟨c, d, hcd, by rw [← hw', legalInit_init]; simpa using hcd, rfl⟩)
    · refine ⟨_, execSetBrightness_of_ready h l, ?_⟩
      split
      · exact .inl ⟨.notInit, by simp, by rw [hw']⟩
      · next hu => exact .inr (.inr (.inl ⟨h.resolve_left hu, l, rfl⟩))
    · refine ⟨_, execWriteSegmentRaw_of_ready h p b, ?_⟩
      split
      · exact .inl ⟨.notInit, by simp, by rw [hw']⟩
      · next hu =>
        split
        · exact .inl ⟨.posRange, by simp, by rw [hw']⟩
        · next hp => exact .inr (.inr (.inr ⟨h.resolve_left hu, p, b, by omega, rfl⟩))

/-- In BUSY a CMD write has not happened yet, in FAULT it is discarded (R120, R209). -/
theorem writeCmd_of_not_ready {s : State} (h : s.fsm = .busy ∨ s.fsm = .fault) (w : Word) : writeCmd w s = .next s := by
  have hacc : ∀ (w : Word) (f : State → State), accept w f s = .next s := by
    intro w f
    rcases h with h | h
    · exact accept_of_busy h w f
    · exact accept_of_fault h w f
  unfold writeCmd
  simp only [decode]
  rcases hd : decodeCmd w with e | i
  · exact hacc w id
  · obtain ⟨_, ⟨c, d, rfl⟩ | ⟨l, rfl⟩ | ⟨p, b, rfl⟩⟩ := decodeCmd_ok hd <;> exact hacc _ _

/-- All a host operation does. -/
theorem hostMove_cases (op : HostOp) (s : State) :
    ∃ t, hostMove op s = .next t ∧
      (t = s ∨
        (∃ reg, t = hostRead reg s) ∨
        (∃ dot idx, t = driveEncoder dot idx s) ∨
        t = pollOnce s ∨
        ((s.fsm = .uninit ∨ s.fsm = .idle) ∧
          ((∃ c w, (c = .illegalCmd ∨ c = .notInit ∨ c = .posRange ∨ c = .pinConflict) ∧ t = raiseFault c w s) ∨
            (∃ c d, c ≠ d ∧ isInitWrite op = true ∧ t = performInit c d s) ∨
            (s.fsm = .idle ∧ ∃ l, t = performSetBrightness l s) ∨
            (s.fsm = .idle ∧ ∃ p b, p.toNat < hw.nDigits ∧ t = performWriteSegmentRaw p b s)))) := by
  cases op with
  | write reg w =>
    simp only [hostMove, writeReg]
    split
    · by_cases h : s.fsm = .uninit ∨ s.fsm = .idle
      · obtain ⟨t, ht, hc⟩ := writeCmd_of_ready h w
        refine ⟨t, ht, .inr (.inr (.inr (.inr ⟨h, ?_⟩)))⟩
        rcases hc with ⟨c, hc, rfl⟩ | ⟨c, d, hcd, hl, rfl⟩ | hc
        · exact .inl ⟨c, w, hc, rfl⟩
        · exact .inr (.inl ⟨c, d, hcd, by simp [isInitWrite, *], rfl⟩)
        · exact .inr (.inr hc)
      · refine ⟨s, writeCmd_of_not_ready ?_ w, .inl rfl⟩
        cases hf : s.fsm <;> simp_all
    · exact ⟨s, rfl, .inl rfl⟩
  | read reg => exact ⟨_, rfl, .inr (.inl ⟨reg, rfl⟩)⟩
  | encode dot idx =>
    refine ⟨_, by rw [hostMove, decodeEnc_append]; rfl, .inr (.inr (.inl ⟨dot, idx, rfl⟩))⟩
  | poll => exact ⟨_, rfl, .inr (.inr (.inr (.inl rfl)))⟩

/-- All one pass of `wait` does. -/
theorem pollOnce_cases (s : State) :
    pollOnce s = pushHost ⟨1, .poll⟩ (hostRead 1 s) ∨ pollOnce s = hostRead 1 s := by
  unfold pollOnce; split <;> simp

/-! ### Events -/

/-- An event other than reset leaves the engine, the trace, the port and the queues; another agent changes pins only, and an answer that
never comes makes a hang only. -/
theorem onEvent_of_ne_reset {ev : Event} (h : ev ≠ .reset) (s : State) :
    onEvent ev s = s ∨ (ev = .noAnswer ∧ s.outstanding ≠ none ∧ onEvent ev s = hang s) ∨ ∃ p, (∃ d, ev = .pinWrite p (.dir d) ∧ onEvent ev s = setDir p d s) ∨
      (∃ l, ev = .pinWrite p (.latch l) ∧ onEvent ev s = setLatch p l s) := by
  cases ev with
  | reset => exact absurd rfl h
  | lateResponse r => exact .inl rfl
  | noAnswer =>
    rcases ho : s.outstanding with _ | a
    · exact .inl (by simp [onEvent, ho])
    · exact .inr (.inl ⟨rfl, by simp, by simp [onEvent, ho]⟩)
  | pinWrite p w =>
    cases w with
    | dir d => exact .inr (.inr ⟨p, .inl ⟨d, rfl, rfl⟩⟩)
    | latch l => exact .inr (.inr ⟨p, .inr ⟨l, rfl, rfl⟩⟩)

/-- A reset resets the engine of the state it meets, with at most the coinciding CMD write noted and taken from the queue. -/
theorem onEvent_reset (s : State) : ∃ u, (u = s ∨ ∃ op, u = noteOp op (popHost s)) ∧ onEvent .reset s = engineReset u := by
  refine ⟨dropCmdWrite s, ?_, rfl⟩
  unfold dropCmdWrite
  split
  · split
    · exact .inr ⟨_, rfl⟩
    · exact .inl rfl
  · exact .inl rfl

/-! ### A step -/

theorem step_event {s : State} {ev : Event} (h : dueEvent s = some ev) : step s = .next (onEvent ev (popEvent s)) := by
  simp [step, turn, h]

theorem step_host {s : State} {op : HostOp} (he : dueEvent s = none) (h : dueHost s = some op) :
    step s = hostMove op (noteOp op (popHost s)) := by
  simp [step, turn, he, h]

/-- The host's first operation has its turn unless it is a CMD write that BUSY holds (R120). -/
theorem dueHost_of_head {s : State} {op : HostOp} {rest : List HostReq} (h : s.host = ⟨0, op⟩ :: rest)
    (hn : ¬(isCmdWrite op = true ∧ s.fsm = .busy)) : dueHost s = some op := by
  simp only [dueHost, h, if_neg hn]

theorem still_of_not {s : State} (h : ¬(s.fsm = .busy ∧ s.hung = false)) : s.fsm ≠ .busy ∨ s.hung = true := by
  by_cases hb : s.fsm = .busy
  · exact .inr (by simpa [hb] using h)
  · exact .inl hb

/-- Everything one step can do. -/
theorem step_cases {s t : State} (h : step s = .next t) :
    (∃ ev, dueEvent s = some ev ∧ t = onEvent ev (popEvent s)) ∨
      (dueEvent s = none ∧ ∃ op, dueHost s = some op ∧ hostMove op (noteOp op (popHost s)) = .next t) ∨
      (dueEvent s = none ∧ dueHost s = none ∧ (s.fsm ≠ .busy ∨ s.hung = true) ∧ t = elapse s) ∨
      (dueEvent s = none ∧ dueHost s = none ∧ s.fsm = .busy ∧ s.hung = false ∧
        ∃ a, s.outstanding = some a ∧ t = answer a (elapse s)) ∨
      (dueEvent s = none ∧ dueHost s = none ∧ s.fsm = .busy ∧ s.hung = false ∧ s.outstanding = none ∧
        ∃ a, (curSeq s)[s.seqIdx.toNat]? = some a ∧ t = issue a (elapse s)) := by
  unfold step turn at h
  rcases he : dueEvent s with _ | ev
  · rcases hh : dueHost s with _ | op
    · simp only [he, hh] at h
      by_cases hb : s.fsm = .busy ∧ s.hung = false
      · rw [engineMove_of_busy (by simpa using hb.1) (by simpa using hb.2)] at h
        rcases moveWith_cases (curSeq s)[s.seqIdx.toNat]? (elapse s) with ⟨a, ha, hm⟩ | ⟨a, ho, ha, hm⟩ | ⟨_, _, hm⟩ <;>
          simp [sequencerMove, hm] at h
        · exact .inr (.inr (.inr (.inl ⟨rfl, rfl, hb.1, hb.2, a, by simpa using ha, h.symm⟩)))
        · exact .inr (.inr (.inr (.inr ⟨rfl, rfl, hb.1, hb.2, by simpa using ho, a, ha, h.symm⟩)))
      · have hs := still_of_not hb
        rw [engineMove_of_still (by simpa using hs)] at h
        exact .inr (.inr (.inl ⟨rfl, rfl, hs, by simpa using h.symm⟩))
    · simp only [he, hh] at h
      exact .inr (.inl ⟨rfl, op, rfl, h⟩)
  · simp only [he] at h
    exact .inl ⟨ev, rfl, by simpa using h.symm⟩

/-- A step never refuses, and it stops only in BUSY with nothing outstanding and no action at SEQ_IDX. -/
theorem step_next_or_noAction (s : State) :
    (∃ t, step s = .next t) ∨
      (step s = .fault .noAction ∧ s.fsm = .busy ∧ s.outstanding = none ∧ (curSeq s)[s.seqIdx.toNat]? = none) := by
  unfold step turn
  rcases he : dueEvent s with _ | ev
  · rcases hh : dueHost s with _ | op
    · by_cases hb : s.fsm = .busy ∧ s.hung = false
      · simp only
        rw [engineMove_of_busy (by simpa using hb.1) (by simpa using hb.2)]
        rcases moveWith_cases (curSeq s)[s.seqIdx.toNat]? (elapse s) with ⟨a, _, hm⟩ | ⟨a, _, _, hm⟩ | ⟨ho, hn, hm⟩
        · exact .inl ⟨_, hm⟩
        · exact .inl ⟨_, hm⟩
        · exact .inr ⟨hm, hb.1, by simpa using ho, hn⟩
      · simp only
        rw [engineMove_of_still (by simpa using still_of_not hb)]
        exact .inl ⟨_, rfl⟩
    · obtain ⟨t, ht, _⟩ := hostMove_cases op (noteOp op (popHost s))
      exact .inl ⟨t, ht⟩
  · exact .inl ⟨_, rfl⟩

/-- A step with nothing due and an action in flight answers it. -/
theorem step_answer {s : State} {a : Action} (he : dueEvent s = none) (hh : dueHost s = none) (hb : s.fsm = .busy)
    (hu : s.hung = false) (ho : s.outstanding = some a) : step s = .next (answer a (elapse s)) := by
  simp only [step, turn, he, hh]
  rw [engineMove_of_busy (by simpa using hb) (by simpa using hu)]
  simp [sequencerMove, moveWith, ho]

/-- A step with nothing due and nothing in flight issues the action at SEQ_IDX. -/
theorem step_issue {s : State} {a : Action} (he : dueEvent s = none) (hh : dueHost s = none) (hb : s.fsm = .busy)
    (hu : s.hung = false) (ho : s.outstanding = none) (ha : (curSeq s)[s.seqIdx.toNat]? = some a) : step s = .next (issue a (elapse s)) := by
  simp only [step, turn, he, hh]
  rw [engineMove_of_busy (by simpa using hb) (by simpa using hu)]
  simp [sequencerMove, moveWith, ho, ha]

/-- `answer_of_ne_fail` with one move counted in the queues, as a step answers. -/
theorem answer_elapse_of_ne_fail {a : Action} {s : State} (h : respond a (elapse s) ≠ .cfg .fail) :
    (answer a (elapse s)).faultCause = s.faultCause ∧ (answer a (elapse s)).faultInfo = s.faultInfo ∧
      (answer a (elapse s)).fsm = (if s.seqIdx.toNat + 1 = (curSeq s).length then .idle else s.fsm) ∧
      (answer a (elapse s)).seqIdx = (if s.seqIdx.toNat + 1 = (curSeq s).length then 0 else s.seqIdx + 1) ∧
      (answer a (elapse s)).ackLog =
        (match respond a (elapse s) with | .level b => ackAfter s.seqIdx (!b) s.ackLog | _ => s.ackLog) :=
  answer_of_ne_fail h

end Sys2Proof.Machine
end

