-- ==== Sys2Proof/Laws/PerInstr.lean ====
section
/-! SUPPORT. Statements made per instruction. `OneEncoding`: no bits but the encoder's decode to the instruction, so every encoding has
one spelling (R95: a reserved field that is not 0 makes a word illegal). -/

namespace Sys2Proof.Laws.OneEncoding

/-- Whatever decodes to i is the encoding of i. -/
def Statement (i : Instr) : Prop := ∀ b : Bits, decode b = .ok i → b = encode i

theorem cmd_of_decode {i : Instr} {w w' : Word} (h : decode (.cmd w) = .ok i) (he : encode i = .cmd w') :
    Bits.cmd w = encode i := by
  have := (Machine.decodeCmd_ok (by simpa [decode] using h)).1
  rw [he, ← this, cmdWordOf, he]

theorem not_enc_of_cmd {x : BitVec 9} {i : Instr} {w : Word} (h : decode (.enc x) = .ok i) (he : encode i = .cmd w) :
    False := by
  simp only [decode, decodeEnc, Except.ok.injEq] at h
  subst h
  cases he

theorem not_wire_of_cmd {r : ByteRole} {b : Byte} {i : Instr} {w : Word} (h : decode (.wire r b) = .ok i)
    (he : encode i = .cmd w) : False := by
  cases r <;> simp only [decode, decodeWire] at h <;> (try split at h) <;> cases h <;> cases he

theorem of_cmd {i : Instr} {w : Word} (he : encode i = .cmd w) : Statement i := by
  intro b hb
  cases b with
  | cmd w' => exact cmd_of_decode hb he
  | enc x => exact (not_enc_of_cmd hb he).elim
  | wire r b => exact (not_wire_of_cmd hb he).elim

theorem init (clk dio : PinId) : Statement (.init clk dio) := of_cmd rfl

theorem setBrightness (level : Byte) : Statement (.setBrightness level) := of_cmd rfl

theorem writeSegmentRaw (pos bm : Byte) : Statement (.writeSegmentRaw pos bm) := of_cmd rfl

theorem cmd_is_command {i : Instr} {w : Word} (h : decode (.cmd w) = .ok i) : ∃ w', encode i = .cmd w' := by
  obtain ⟨_, ⟨c, d, rfl⟩ | ⟨l, rfl⟩ | ⟨p, b, rfl⟩⟩ := Machine.decodeCmd_ok (by simpa [decode] using h) <;> exact ⟨_, rfl⟩

theorem encode (dot : Bool) (idx : Byte) : Statement (.encode dot idx) := by
  intro b hb
  cases b with
  | cmd w => obtain ⟨w', h⟩ := cmd_is_command hb; cases h
  | enc x =>
    simp only [decode, decodeEnc, Except.ok.injEq, Instr.encode.injEq] at hb
    obtain ⟨rfl, rfl⟩ := hb
    simp only [Sys2Proof.encode, Bits.enc.injEq]
    apply BitVec.eq_of_getLsbD_eq
    intro i hi
    simp only [BitVec.getLsbD_append, BitVec.getLsbD_extractLsb']
    split_ifs with h
    · rw [decide_eq_true h]; simp
    · have : i = 8 := by omega
      subst this
      cases x.getLsbD 8 <;> rfl
  | wire r b => cases r <;> simp only [decode, decodeWire] at hb <;> (try split at hb) <;> cases hb

/-- A byte is its upper five bits and its lower three. -/
theorem byte_of_fields : ∀ b : Byte,
    (b.extractLsb' 3 5 = 0b11000#5 → b = addrByte (b.extractLsb' 0 3)) ∧
      (b.extractLsb' 3 5 = 0b10001#5 → b = ctrlByte (b.extractLsb' 0 3)) := by
  decide

theorem of_wire {i : Instr} {r : ByteRole} {x : Byte} (he : Sys2Proof.encode i = .wire r x) : Statement i := by
  intro b hb
  cases b with
  | cmd w => obtain ⟨w', h⟩ := cmd_is_command hb; rw [he] at h; cases h
  | enc y =>
    simp only [decode, decodeEnc, Except.ok.injEq] at hb
    subst hb
    cases he
  | wire r' b =>
    cases r' <;> simp only [decode, decodeWire] at hb
    · split at hb
      · next h => cases hb; rw [h]; rfl
      · cases hb
    · split at hb
      · next h => cases hb; simp only [Sys2Proof.encode]; rw [← (byte_of_fields b).1 h]
      · cases hb
    · cases hb; rfl
    · split at hb
      · next h => cases hb; simp only [Sys2Proof.encode]; rw [← (byte_of_fields b).2 h]
      · cases hb

theorem wireDataCmd : Statement .wireDataCmd := of_wire rfl

theorem wireAddrCmd (pos : BitVec 3) : Statement (.wireAddrCmd pos) := of_wire rfl

theorem wireData (bm : Byte) : Statement (.wireData bm) := of_wire rfl

theorem wireDispCtrl (bri : BitVec 3) : Statement (.wireDispCtrl bri) := of_wire rfl

end Sys2Proof.Laws.OneEncoding
end

