-- ==== Sys2Proof/Laws/Wires.lean ====
section
/-! SUPPORT. The wires after a list of actions, and the conditions it makes, part by part; the relations between states that the
determinism statements use. -/

namespace Sys2Proof

variable (c d : PinId) (w : Wires) (l m : List Machine.Action)

@[simp] theorem wiresAfter_nil : wiresAfter c d w [] = w := rfl

@[simp] theorem wiresAfter_cons (a : Machine.Action) : wiresAfter c d w (a :: l) = wiresAfter c d (wireStep c d w a) l := rfl

theorem wiresAfter_append : wiresAfter c d w (l ++ m) = wiresAfter c d (wiresAfter c d w l) m := by
  simp [wiresAfter]

/-- The conditions of two parts in a row are those of the first and then those of the second, from where the first ends. -/
theorem edgesFrom_append (ext : Nat → Outside) (n : Nat) :
    edgesFrom ext c d n w (l ++ m) =
      edgesFrom ext c d n w l ++ edgesFrom ext c d (n + l.length) (wiresAfter c d w l) m := by
  induction l generalizing n w with
  | nil => rfl
  | cons a l ih =>
    simp only [List.cons_append, edgesFrom, wiresAfter_cons, List.length_cons, ih,
      show n + 1 + l.length = n + (l.length + 1) by omega]
    split <;> rfl

/-- A driven line has its latch's level whatever the outside world does (R34). -/
@[simp] theorem lineLevel_out_low (o : Level) : Machine.lineLevel .out .low o = false := rfl

@[simp] theorem lineLevel_out_high (o : Level) : Machine.lineLevel .out .high o = true := rfl

/-- A released line has the outside world's level (R34). -/
@[simp] theorem lineLevel_input (l : Latch) (o : Level) : Machine.lineLevel .input l o = o := by cases l <;> rfl

/-- A pin that nothing has configured leaves its line to the outside world (R34). -/
@[simp] theorem lineLevel_unconf (l : Latch) (o : Level) : Machine.lineLevel .unconf l o = o := by cases l <;> rfl

/-- An output whose latch has no value leaves its line to the outside world (R34). -/
@[simp] theorem lineLevel_out_undef (o : Level) : Machine.lineLevel .out .undef o = o := rfl

theorem SameButSamples.refl (s : Machine.State) : SameButSamples s s := rfl

/-- States that differ in samples only differ in no more than samples and pins. -/
theorem SameButSamples.sameButPins {s t : Machine.State} (h : SameButSamples s t) : SameButPins s t := by
  unfold SameButSamples at h
  unfold SameButPins
  rw [h]

end Sys2Proof
end

