-- ==== Sys2Proof/WellFormed.lean ====
section
/-! DEFINITION. Which instructions are well formed. Every field of a command word and of the ENCODE port is as wide as its operand
(R92 to R94, R100), so every such term is a legal encoding; what R201 refuses among them (one pin twice, a position past the
display) is refused when the word is accepted, not by its format (R94). The only format check is R83's: the address bytes the engine
can send are 0xC0 to 0xC0 + N_DIGITS - 1 and no other. -/

namespace Sys2Proof

/-- The instruction is one whose bits the spec allows in its place. -/
def wellFormed : Instr → Bool
  | .init _ _ => true
  | .setBrightness _ => true
  | .writeSegmentRaw _ _ => true
  | .encode _ _ => true
  | .wireDataCmd => true
  | .wireAddrCmd pos => decide (pos.toNat < Machine.hw.nDigits)
  | .wireData _ => true
  | .wireDispCtrl _ => true

end Sys2Proof
end

