-- ==== Sys2Proof/Tests/Slice0.lean ====
section
/-! SUPPORT. The model's own tests: expected values are those of spec/95_test_vectors.md (named in each comment) or are written out from
an encoding of spec/30_encoding.md. Below them, a witness for the hypotheses of every statement that has any. -/

namespace Sys2Proof.Tests

open Machine

/-! ## Small states -/

/-- The next state of an outcome, if it has one. -/
def nextOf : Outcome → Option State
  | .next s => some s
  | .fault _ => none
  | .refused _ => none

/-- STATUS and FAULT_INFO after an outcome. -/
def report (o : Outcome) : Option (Word × Word) := (nextOf o).map fun s => (statusWord s, s.faultInfo)

/-- The refusal of an outcome, if it is one. -/
def refusalOf : Outcome → Option Refusal
  | .next _ => none
  | .fault _ => none
  | .refused r => some r

/-- IDLE after `init 18, 19`: both lines outputs at 1 (R37). -/
def idleState : State :=
  { State.reset with
    fsm := .idle, clkPin := 18, dioPin := 19, initWritten := true, dirs := [(18, .out), (19, .out)], latches := [(18, .high), (19, .high)] }

/-- FAULT after a `wrseg 0, 0x3F` in UNINIT (C3). -/
def faultState : State :=
  { State.reset with fsm := .fault, faultCause := .notInit, faultInfo := 0x0300003F }

/-- BUSY in `init 18, 19` at index i with an action in flight or none. -/
def initing (i : BitVec 8) (a : Option Action) : State :=
  { State.reset with fsm := .busy, op := .init, clkPin := 18, dioPin := 19, seqIdx := i, outstanding := a, initWritten := true }

/-- BUSY in `wrseg 2, 0x5B` at index i with an action in flight or none. -/
def writing (i : BitVec 8) (a : Option Action) : State :=
  { idleState with fsm := .busy, op := .write, position := 2, bitmap := 0x5B, seqIdx := i, outstanding := a }

/-- The same with DIO released, as it is in an acknowledge window. -/
def inWindow (i : BitVec 8) (a : Option Action) : State :=
  { writing i a with dirs := [(18, .out), (19, .input)] }

/-- s with responses and levels that the outside world is known to give. -/
def scripted (cfg : List CfgResp) (levels : List Level) (s : State) : State :=
  { s with cfgScript := cfg, levelScript := levels }

/-- s with an operation that the host makes now. -/
def asks (op : HostOp) (s : State) : State := { s with host := [⟨0, op⟩] }

/-- s with an event that happens now. -/
def meets (ev : Event) (s : State) : State := { s with events := [⟨0, ev⟩] }

/-! ## Decoding (R92 to R97, R100) -/

/-- `{0x01, 0x00, CLK, DIO}`, bit by bit: 01, 00, 12, 13. -/
theorem test_decode_init : decode (.cmd 0b00000001_00000000_00010010_00010011#32) = .ok (.init 0x12 0x13) := by decide

/-- `{0x02, 0x0000, LEVEL}`. -/
theorem test_decode_setBrightness : decode (.cmd 0b00000010_00000000_00000000_11001000#32) = .ok (.setBrightness 200) := by
  decide

/-- `{0x03, 0x00, POS, BITMAP}`. -/
theorem test_decode_writeSegmentRaw :
    decode (.cmd 0b00000011_00000000_00000001_00000110#32) = .ok (.writeSegmentRaw 1 0x06) := by decide

/-- `{ENC_DOT, ENC_IDX}`. -/
theorem test_decode_encode : decode (.enc 0b1_01100011#9) = .ok (.encode true 99) := by decide

/-- The four wire bytes in their places. -/
theorem test_decode_wire :
    decode (.wire .dataCmd 0b01000100#8) = .ok .wireDataCmd ∧ decode (.wire .addrCmd 0b11000011#8) = .ok (.wireAddrCmd 3) ∧
    decode (.wire .data 0b01000100#8) = .ok (.wireData 0x44) ∧ decode (.wire .dispCtrl 0b10001111#8) = .ok (.wireDispCtrl 7) := by
  decide

/-- R95: reserved fields and unknown opcodes (C5, C6, C7, C8, C11, C12, C15). -/
theorem test_decode_illegal :
    decode (.cmd 0x04000000) = .error .illegalOpcode ∧ decode (.cmd 0) = .error .illegalOpcode ∧
    decode (.cmd 0xFF000000) = .error .illegalOpcode ∧ decode (.cmd 0x01011213) = .error .reservedField ∧
    decode (.cmd 0x02000100) = .error .reservedField ∧ decode (.cmd 0x02010000) = .error .reservedField ∧
    decode (.cmd 0x03800300) = .error .reservedField := by decide

/-- A byte that the engine does not send in its place. -/
theorem test_decode_wire_refused :
    decode (.wire .dataCmd 0x40) = .error .notOfThisPlace ∧ decode (.wire .addrCmd 0x88) = .error .notOfThisPlace ∧
    decode (.wire .dispCtrl 0x80) = .error .notOfThisPlace := by decide

/-- The words of 95_test_vectors' programs from the encoder. -/
theorem test_encode :
    cmdWordOf (.init 18 19) = 0x01001213 ∧ cmdWordOf (.setBrightness 200) = 0x020000C8 ∧
    cmdWordOf (.writeSegmentRaw 3 0xFF) = 0x030003FF ∧ encode (.encode true 8) = .enc 0x108 ∧
    encode (.wireAddrCmd 2) = .wire .addrCmd 0xC2 ∧ encode (.wireDispCtrl 7) = .wire .dispCtrl 0x8F := by decide

/-- The opcode table's numbering of the bits: 32, 9 (in whole bytes 16) and 8 bits. -/
theorem test_decodeTableWord :
    decodeTableWord 32 0x01000000 = some (.init 0 0) ∧ decodeTableWord 32 0x03000000 = some (.writeSegmentRaw 0 0) ∧
    decodeTableWord 16 0x108 = some (.encode true 8) ∧ decodeTableWord 8 0x44 = some .wireDataCmd ∧
    decodeTableWord 8 0xC0 = some (.wireAddrCmd 0) ∧ decodeTableWord 8 0x88 = some (.wireDispCtrl 0) ∧
    decodeTableWord 8 0 = some (.wireData 0) ∧ decodeTableWord 32 0x04000000 = none := by decide

/-- The one ill-formed term: no address byte past the display is sent (R83). -/
theorem test_wellFormed_refuses :
    wellFormed (.wireAddrCmd 4) = false ∧ wellFormed (.wireAddrCmd 7) = false ∧ wellFormed (.wireAddrCmd 3) = true := by decide

/-! ## Acceptance (V-C, V-B) -/

/-- C2 to C7: UNINIT. -/
theorem test_check_uninit :
    report (writeReg 0 0x020000C8 .reset) = some (0x00002073, 0x020000C8) ∧
    report (writeReg 0 0x0300003F .reset) = some (0x00002073, 0x0300003F) ∧
    report (writeReg 0 0x0300093F .reset) = some (0x00002073, 0x0300093F) ∧
    report (writeReg 0 0x04000000 .reset) = some (0x00001073, 0x04000000) ∧
    report (writeReg 0 0x00000000 .reset) = some (0x00001073, 0x00000000) ∧
    report (writeReg 0 0xFF000000 .reset) = some (0x00001073, 0xFF000000) := by decide

/-- C8 to C10: the order of the tests on INIT. -/
theorem test_check_init :
    report (writeReg 0 0x01011213 .reset) = some (0x00001073, 0x01011213) ∧
    report (writeReg 0 0x01000505 .reset) = some (0x00004073, 0x01000505) ∧
    report (writeReg 0 0x01010505 .reset) = some (0x00001073, 0x01010505) := by decide

/-- C11 to C15: IDLE. -/
theorem test_check_idle :
    report (writeReg 0 0x02000100 idleState) = some (0x00001073, 0x02000100) ∧
    report (writeReg 0 0x02010000 idleState) = some (0x00001073, 0x02010000) ∧
    report (writeReg 0 0x03000400 idleState) = some (0x00003073, 0x03000400) ∧
    report (writeReg 0 0x0300FF00 idleState) = some (0x00003073, 0x0300FF00) ∧
    report (writeReg 0 0x03800300 idleState) = some (0x00001073, 0x03800300) := by decide

/-- C18 discarded, C19 accepted; V-B: the clamp at 6, 7, 8 and 255. -/
theorem test_setBrightness :
    report (writeReg 0 0x01001213 faultState) = some (0x00002073, 0x0300003F) ∧
    report (writeReg 0 0x02000003 idleState) = some (0x00000031, 0) ∧
    report (writeReg 0 0x02000006 idleState) = some (0x00000061, 0) ∧
    report (writeReg 0 0x02000007 idleState) = some (0x00000071, 0) ∧
    report (writeReg 0 0x02000008 idleState) = some (0x00000071, 0) ∧
    report (writeReg 0 0x020000FF idleState) = some (0x00000071, 0) := by decide

/-- C1 on acceptance: BUSY in INIT_SEQ at index 0, the pins kept. -/
theorem test_init_accepted :
    (nextOf (exec (.init 18 19) .reset)).map (fun s => (statusWord s, configWord s)) = some (0x00000072, 0x00041213) := by decide

/-- C16 on acceptance: BUSY with OP 1, position 3 and bitmap 0xFF. -/
theorem test_writeSegmentRaw_accepted :
    (nextOf (exec (.writeSegmentRaw 3 0xFF) idleState)).map (fun s => (statusWord s, s.position, s.bitmap)) =
      some (0x00000076, 3, 0xFF) := by decide

/-! ## ENCODE (V-E, S1 to S4) -/

/-- Both columns of V-E at 0, 8, 15, 16, 99 and 255. -/
theorem test_encode_out :
    [(0, false), (8, false), (15, false), (99, false), (8, true), (16, true), (255, true)].map
        (fun p : Byte × Bool => (nextOf (exec (.encode p.2 p.1) .reset)).map encOut) =
      [0x3F, 0x7F, 0x71, 0x00, 0xFF, 0xC0, 0x80].map (fun b : Byte => some b) := by decide

/-- ENCODE in FAULT answers as elsewhere and leaves the engine alone (R184). -/
theorem test_encode_in_fault :
    (nextOf (exec (.encode true 1) faultState)).map (fun s => (encOut s, statusWord s)) = some (0x86, 0x00002073) := by decide

/-! ## The sequencer and the wire bytes -/

/-- V-T's indices 50 to 54 of the wire byte 0x44: the window's first five actions; the delays are at 52 only. -/
theorem test_wireDataCmd_issues :
    [50, 51, 53, 54, 56].map (fun i => (nextOf (exec .wireDataCmd (writing i none))).map (·.outstanding)) =
      [Action.cfgIn 19, .set 18 false, .get 19, .set 18 true, .set 18 false].map (fun a => some (some a)) := by decide

/-- V-D, byte 0xC2 in the order sent: 0,1,0,0,0,0,1,1, each at offset 6i + 2. -/
theorem test_wireAddrCmd_bits :
    [69, 75, 81, 87, 93, 99, 105, 111].map (fun i => (nextOf (exec (.wireAddrCmd 2) (writing i none))).map (·.outstanding)) =
      [false, true, false, false, false, false, true, true].map (fun v => some (some (Action.set 19 v))) := by decide

/-- V-D, byte 0x86 in the order sent: 0,1,1,0,0,0,0,1. -/
theorem test_wireData_bits :
    [126, 132, 138, 144, 150, 156, 162, 168].map (fun i => (nextOf (exec (.wireData 0x86) (writing i none))).map (·.outstanding)) =
      [false, true, true, false, false, false, false, true].map (fun v => some (some (Action.set 19 v))) := by decide

/-- V-D, byte 0x8A in the order sent: 0,1,0,1,0,0,0,1. -/
theorem test_wireDispCtrl_bits :
    [191, 197, 203, 209, 215, 221, 227, 233].map (fun i => (nextOf (exec (.wireDispCtrl 2) (writing i none))).map (·.outstanding)) =
      [false, true, false, true, false, false, false, true].map (fun v => some (some (Action.set 19 v))) := by decide

/-- R157: the GET at 53 answered 0 sets ACK_LOG[0]; STATUS then has SEQ_IDX 54. -/
theorem test_ack_sampled :
    report (exec .wireDataCmd (scripted [] [false] (inWindow 53 (some (.get 19))))) = some (0x00360176, 0) := by
  decide +kernel

/-- V-G, index 115 (P6): a failed CFG_IN of the address byte's window. -/
theorem test_window_fails :
    report (exec (.wireAddrCmd 2) (scripted [.fail] [] (writing 115 (some (.cfgIn 19))))) = some (0x00736077, 0x03000073) := by
  decide

/-- A wire byte out of its place is refused by name. -/
theorem test_byte_out_of_place :
    refusalOf (exec .wireDataCmd .reset) = some .byteOutOfPlace ∧
    refusalOf (exec (.wireDispCtrl 7) (writing 188 none)) = some .byteOutOfPlace := by decide

/-- I3 (P7): the second CFG_OUT of INIT fails. -/
theorem test_init_fails :
    report (step (scripted [.fail] [] (initing 1 (some (.cfgOut 19))))) = some (0x00015073, 0x01000001) := by decide

/-- R122: the answer to the last action of INIT_SEQ completes it (C1's end state). -/
theorem test_init_completes : report (step (initing 5 (some (.delay 1)))) = some (0x00000071, 0) := by decide

/-- V-M and R2: STATUS in BUSY at 53; a reset there leaves STATUS 0x70, CONFIG 0x00040000 and nothing in flight. -/
theorem test_reset_in_busy :
    statusWord (inWindow 53 none) = 0x00350076 ∧
    (nextOf (step (meets .reset (inWindow 53 (some (.get 19)))))).map (fun s => (statusWord s, configWord s, s.outstanding)) =
      some (0x00000070, 0x00040000, none) := by decide

/-- V-M: the host's four reads in IDLE after `init 18, 19`; a write to STATUS changes nothing. -/
theorem test_host_reads :
    [0, 1, 2, 3].map (fun r => (nextOf (step (asks (.read r) idleState))).map (·.rdData)) =
      [0x00000000, 0x00000071, 0x00000000, 0x00041213].map (fun w : Word => some w) ∧
    report (step (asks (.write 1 0xFFFFFFFF) idleState)) = some (0x00000071, 0) := by decide

/-- The very next step runs what `withFetchWord` places: INIT's word, and the address byte 0xC0. -/
theorem test_withFetchWord :
    report (step (State.reset.withFetchWord 32 0x01001213)) = some (0x00000072, 0) ∧
    (nextOf (step (State.reset.withFetchWord 8 0xC0))).map (·.outstanding) = some (some (.set 0 false)) := by decide

/-! ## Witnesses: for every statement with hypotheses, a state and operands that meet them -/

/-- An IDLE state that meets the invariant. -/
theorem test_witness_idle_inv : idleState.Inv :=
  ⟨by decide, by decide, by decide, fun _ => rfl, (fun h => nomatch h), (fun _ h => nomatch h), (fun h => nomatch h),
    by decide, fun _ => rfl, fun _ => by decide, fun _ => rfl⟩

theorem test_witness_fault_inv : faultState.Inv :=
  ⟨by decide, by decide, by decide, (fun h => by rcases h with h | h <;> cases h), (fun h => nomatch h), (fun _ h => nomatch h),
    (fun h => nomatch h), by decide, (fun h => nomatch h), (fun h => by rcases h with h | h <;> cases h),
    (fun h => by rcases h with h | h <;> cases h)⟩

/-- A state in a segment write meets the invariant if its index is one of the sequence and its action in flight is the one there. -/
theorem writing_inv {i : BitVec 8} {a : Option Action} (hi : i.toNat < 252)
    (ha : ∀ b, a = some b → (curSeq (writing i a))[i.toNat]? = some b) : (writing i a).Inv :=
  ⟨test_witness_idle_inv.dirs_wf, test_witness_idle_inv.latches_wf, by show 2 < 4; decide,
    (fun h => by rcases h with h | h <;> cases h), fun _ => by rw [curSeq_length]; exact hi,
    fun b hb => ⟨rfl, ha b hb⟩, (fun h => nomatch h),
    ⟨fun _ => (fun h => nomatch h), fun _ => rfl⟩, fun _ => rfl, fun _ => by show (18#8 : PinId) ≠ 19#8; decide, fun _ => rfl⟩

/-- BUSY states that meet the invariant: at the first index, at the last, and in a window with its GET in flight. -/
theorem test_witness_writing_inv : (writing 0 none).Inv ∧ (writing 251 none).Inv ∧ (writing 53 (some (.get 19))).Inv :=
  ⟨writing_inv (by decide) (fun _ h => nomatch h), writing_inv (by decide) (fun _ h => nomatch h),
    writing_inv (by decide) (fun b h => by cases h; rfl)⟩

theorem test_witness_initing_inv : (initing 0 none).Inv ∧ (initing 5 none).Inv :=
  ⟨⟨by decide, by decide, by decide, (fun h => by rcases h with h | h <;> cases h), fun _ => by decide, (fun _ h => nomatch h),
      (fun h => nomatch h), by decide, fun _ => rfl, fun _ => by decide, fun _ => rfl⟩,
    ⟨by decide, by decide, by decide, (fun h => by rcases h with h | h <;> cases h), fun _ => by decide, (fun _ h => nomatch h),
      (fun h => nomatch h), by decide, fun _ => rfl, fun _ => by decide, fun _ => rfl⟩⟩

/-- IllegalWords, each clause: an unknown opcode and the three reserved fields at their lowest bit, in UNINIT and IDLE; a legal word. -/
theorem test_witness_IllegalWords :
    (∃ e, decode (.cmd 0x04000000) = .error e) ∧ (∃ e, decode (.cmd 0x01010000) = .error e) ∧
    (∃ e, decode (.cmd 0x02000100) = .error e) ∧ (∃ e, decode (.cmd 0x03010000) = .error e) ∧
    (∃ i, decode (.cmd 0x03000000) = .ok i) ∧ State.reset.fsm = .uninit ∧ idleState.fsm = .idle :=
  ⟨⟨_, rfl⟩, ⟨_, rfl⟩, ⟨_, rfl⟩, ⟨_, rfl⟩, ⟨_, rfl⟩, rfl, rfl⟩

/-- ChecksInOrder: a state for each FSM value, and a word for each of the eight outcomes in its order. -/
theorem test_witness_ChecksInOrder :
    (writing 0 none).fsm = .busy ∧ faultState.fsm = .fault ∧ State.reset.fsm = .uninit ∧ idleState.fsm = .idle ∧
    ([0x04000000, 0x01010505, 0x02000100, 0x03800300, 0x01000505, 0x03000400, 0x030003FF].map (check hw .idle)) =
      [.illegalCmd, .illegalCmd, .illegalCmd, .illegalCmd, .pinConflict, .posRange, .noFault] ∧
    check hw .uninit 0x0300093F = .notInit := by decide

/-- BusyHoldsCmdWrite, with an action in flight and with none. -/
theorem test_witness_BusyHoldsCmdWrite :
    ∃ s s' t t' : State, ∃ w, s.fsm = .busy ∧ s.host = [⟨0, .write 0 w⟩] ∧ dueEvent s = none ∧ step s = .next t ∧
      s'.fsm = .busy ∧ s'.host = [⟨0, .write 0 w⟩] ∧ dueEvent s' = none ∧ step s' = .next t' ∧
      s.outstanding = none ∧ s'.outstanding ≠ none :=
  ⟨asks (.write 0 0x01001213) (writing 0 none), asks (.write 0 0x01001213) (writing 53 (some (.get 19))), _, _, 0x01001213,
    rfl, rfl, rfl, rfl, rfl, rfl, rfl, rfl, rfl, by decide⟩

/-- FaultDiscardsCmdWrite. -/
theorem test_witness_FaultDiscardsCmdWrite : ∃ s : State, s.fsm = .fault := ⟨faultState, rfl⟩

/-- InitResult: both clauses, in UNINIT and in IDLE, at the highest pin. -/
theorem test_witness_InitResult :
    State.reset.fsm = .uninit ∧ idleState.fsm = .idle ∧ (0xFF : PinId) ≠ 0 ∧ (0xFF : PinId) = 0xFF := by decide

/-- SetBrightnessResult: both clauses. -/
theorem test_witness_SetBrightnessResult : idleState.fsm = .idle ∧ State.reset.fsm = .uninit := ⟨rfl, rfl⟩

/-- WriteSegmentRawResult: the last position of the display, the first past it, and UNINIT. -/
theorem test_witness_WriteSegmentRawResult :
    idleState.fsm = .idle ∧ (3 : Byte).toNat < hw.nDigits ∧ hw.nDigits ≤ (4 : Byte).toNat ∧ State.reset.fsm = .uninit := by decide

/-- CommandFrame: each of the three commands with a next state. -/
theorem test_witness_CommandFrame :
    (∃ t, exec (.init 18 19) State.reset = .next t) ∧ (∃ t, exec (.setBrightness 3) idleState = .next t) ∧
    (∃ t, exec (.writeSegmentRaw 3 0xFF) idleState = .next t) := ⟨⟨_, rfl⟩, ⟨_, rfl⟩, ⟨_, rfl⟩⟩

/-- RomContents: this hardware's parameters are legal; the first and last blank entries. -/
theorem test_witness_parameters_legal :
    hw.Legal ∧ 17 ≤ (17 : Byte).toNat ∧ 17 ≤ (0xFF : Byte).toNat ∧ 16 ≤ (17 : Byte).toNat ∧ (17 : Byte) ≠ hw.minusIdx := by decide

/-- ActionCounts: a refused word. -/
theorem test_witness_ActionCounts : ∃ t, writeReg 0 0x04000000 State.reset = .next t := ⟨_, rfl⟩

/-- The wire statements: two pins, the boundary indices of each window, and the wires that the clauses of LineLevels begin from. -/
theorem test_witness_wires :
    (18 : PinId) ≠ 19 ∧ idleHigh.clkDir = .out ∧ idleHigh.dioDir = .out ∧ (0 < 8) ∧ (7 < 8) ∧ 252 ≤ 252 ∧
    (sendByte 18 19 0x44)[2]? = some (.set 19 false) ∧ (sendByte 18 19 0x44)[44]? = some (.set 19 false) := by decide

/-- DioReleasedInWindows: an index inside each window and one outside, each with the direction the actions leave. -/
theorem test_witness_DioReleasedInWindows :
    (wiresAfter 18 19 idleHigh ((writeSeq 18 19 2 0x5B 7).take 50)).dioDir = .out ∧
    (wiresAfter 18 19 idleHigh ((writeSeq 18 19 2 0x5B 7).take 51)).dioDir = .input ∧
    (wiresAfter 18 19 idleHigh ((writeSeq 18 19 2 0x5B 7).take 58)).dioDir = .input ∧
    (wiresAfter 18 19 idleHigh ((writeSeq 18 19 2 0x5B 7).take 59)).dioDir = .out := by decide

/-- InputSwitchHazard, both bitmaps and the four windows. -/
theorem test_witness_InputSwitchHazard :
    (∀ p ∈ ([(2, false), (67, true), (124, true), (189, true)] : List (Nat × Bool)),
      (p.1, p.2) ∈ [(2, false), (67, true), (124, (0x80 : Byte).getLsbD 7), (189, true)]) ∧
    (18 : PinId) ≠ 19 ∧ (0x80 : Byte).getLsbD 7 = true ∧ (0x3F : Byte).getLsbD 7 = false := by decide

/-- StepRunsHostInstruction, its clauses, in UNINIT, IDLE and FAULT, with a word of each kind; ENCODE in BUSY too. -/
theorem test_witness_StepRunsHostInstruction :
    (dueEvent (asks (.write 0 0x01001213) .reset) = none ∧
      (asks (.write 0 0x01001213) .reset).host = [⟨0, .write 0 0x01001213⟩] ∧
      (asks (.write 0 0x01001213) .reset).fsm ≠ .busy ∧ decode (.cmd 0x01001213) = .ok (.init 18 19)) ∧
    (dueEvent (asks (.write 0 0x04000000) idleState) = none ∧
      (asks (.write 0 0x04000000) idleState).host = [⟨0, .write 0 0x04000000⟩] ∧
      (asks (.write 0 0x04000000) idleState).fsm ≠ .busy) ∧
    (asks (.write 0 0x02000003) idleState).fsm ≠ .busy ∧ (asks (.write 0 0x01001213) faultState).fsm ≠ .busy ∧
    (dueEvent (asks (.encode true 8) (writing 3 none)) = none ∧
      (asks (.encode true 8) (writing 3 none)).host = [⟨0, .encode true 8⟩] ∧
      decode (.enc (BitVec.ofBool true ++ 8#8)) = .ok (.encode true 8)) := by decide

/-- StepRunsWireByte: the four bytes, at the first and the last index of each. -/
theorem test_witness_StepRunsWireByte :
    ∀ i ∈ [2, 58, 67, 123, 124, 180, 189, 245], ∃ role j,
      NothingDue (writing (BitVec.ofNat 8 i) none) ∧ (writing (BitVec.ofNat 8 i) none).fsm = .busy ∧
      (writing (BitVec.ofNat 8 i) none).op = .write ∧ roleAt (writing (BitVec.ofNat 8 i) none).seqIdx.toNat = some role ∧
      decode (.wire role (wireByte role 2 0x5B 7)) = .ok j := by
  intro i hi
  simp only [List.mem_cons, List.not_mem_nil, or_false] at hi
  rcases hi with rfl | rfl | rfl | rfl | rfl | rfl | rfl | rfl <;>
    exact ⟨_, _, ⟨rfl, rfl, rfl⟩, rfl, rfl, rfl, rfl⟩

/-- SequencerIssues: the first and last action of each sequence. -/
theorem test_witness_SequencerIssues :
    ∃ a b c d : Action, NothingDue (initing 0 none) ∧ (curSeq (initing 0 none))[0]? = some a ∧
      (curSeq (initing 5 none))[5]? = some b ∧ (curSeq (writing 0 none))[0]? = some c ∧ (curSeq (writing 251 none))[251]? = some d :=
  ⟨_, _, _, _, ⟨rfl, rfl, rfl⟩, rfl, rfl, rfl, rfl⟩

/-- SequencerAnswers: a failed configuration of each command, an `ok` one, a GET, and the last action. -/
theorem test_witness_SequencerAnswers :
    (∀ s ∈ [scripted [.fail] [] (initing 0 (some (.cfgOut 18))), scripted [.fail] [] (writing 50 (some (.cfgIn 19))),
        scripted [.ok] [] (writing 50 (some (.cfgIn 19))), inWindow 53 (some (.get 19)), writing 251 (some (.delay 1))],
      dueEvent s = none ∧ dueHost s = none ∧ s.hung = false ∧ s.fsm = .busy ∧ s.outstanding ≠ none) ∧
    cfgAnswer (scripted [.fail] [] (initing 0 (some (.cfgOut 18)))) = .fail ∧
    cfgAnswer (scripted [.ok] [] (writing 50 (some (.cfgIn 19)))) = .ok := by decide

/-- PinEffects: a response of each kind and two pins. -/
theorem test_witness_PinEffects :
    cfgAnswer (scripted [.ok] [] State.reset) = .ok ∧ cfgAnswer (scripted [.fail] [] State.reset) = .fail ∧ (0 : PinId) ≠ 255 := by
  decide

/-- WireBytesIssue: nothing in flight at the first and the last offset of each byte. -/
theorem test_witness_WireBytesIssue :
    ∀ p ∈ [(2, 2), (2, 58), (67, 67), (67, 123), (124, 124), (124, 180), (189, 189), (189, 245)],
      AtByte p.1 (p.2 - p.1) (writing (BitVec.ofNat 8 p.2) none) ∧ (writing (BitVec.ofNat 8 p.2) none).outstanding = none := by
  intro p hp
  simp only [List.mem_cons, List.not_mem_nil, or_false] at hp
  rcases hp with rfl | rfl | rfl | rfl | rfl | rfl | rfl | rfl <;> exact ⟨⟨rfl, rfl, by decide, rfl⟩, rfl⟩

/-- WireBytesAnswer, a state for each clause of each byte: a delay, a SET, a GET of a driven and of a released line, the two mode
switches answered `ok`, and one answered `fail`. -/
theorem test_witness_WireBytesAnswer :
    ∀ start ∈ [2, 67, 124, 189],
      (AtByte start 1 (writing (BitVec.ofNat 8 (start + 1)) (some (.delay 1)))) ∧
      (AtByte start 2 (writing (BitVec.ofNat 8 (start + 2)) (some (.set 19 true)))) ∧
      (AtByte start 51 (writing (BitVec.ofNat 8 (start + 51)) (some (.get 19))) ∧
        drivenLevel 19 (writing (BitVec.ofNat 8 (start + 51)) (some (.get 19))) = some true) ∧
      (AtByte start 51 (inWindow (BitVec.ofNat 8 (start + 51)) (some (.get 19))) ∧
        drivenLevel 19 (inWindow (BitVec.ofNat 8 (start + 51)) (some (.get 19))) = none) ∧
      (AtByte start 56 (scripted [.ok] [] (writing (BitVec.ofNat 8 (start + 56)) (some (.cfgOut 19)))) ∧
        cfgAnswer (scripted [.ok] [] (writing (BitVec.ofNat 8 (start + 56)) (some (.cfgOut 19)))) = .ok) ∧
      (AtByte start 48 (scripted [.ok] [] (writing (BitVec.ofNat 8 (start + 48)) (some (.cfgIn 19)))) ∧
        cfgAnswer (scripted [.ok] [] (writing (BitVec.ofNat 8 (start + 48)) (some (.cfgIn 19)))) = .ok) ∧
      (AtByte start 56 (scripted [.fail] [] (writing (BitVec.ofNat 8 (start + 56)) (some (.cfgOut 19)))) ∧
        cfgAnswer (scripted [.fail] [] (writing (BitVec.ofNat 8 (start + 56)) (some (.cfgOut 19)))) = .fail) := by
  intro start hs
  simp only [List.mem_cons, List.not_mem_nil, or_false] at hs
  rcases hs with rfl | rfl | rfl | rfl <;>
    exact ⟨⟨rfl, rfl, by decide, rfl⟩, ⟨rfl, rfl, by decide, rfl⟩, ⟨⟨rfl, rfl, by decide, rfl⟩, rfl⟩,
      ⟨⟨rfl, rfl, by decide, rfl⟩, rfl⟩, ⟨⟨rfl, rfl, by decide, rfl⟩, rfl⟩, ⟨⟨rfl, rfl, by decide, rfl⟩, rfl⟩,
      ⟨⟨rfl, rfl, by decide, rfl⟩, rfl⟩⟩

/-- WireBytesSent: the four places with two `ok` responses and a level to come. -/
theorem test_witness_WireBytesSent :
    ∀ start ∈ [2, 67, 124, 189], ∃ rest more,
      AtByte start 0 (scripted [.ok, .ok] [false] (writing (BitVec.ofNat 8 start) none)) ∧
      (scripted [.ok, .ok] [false] (writing (BitVec.ofNat 8 start) none)).cfgScript = .ok :: .ok :: rest ∧
      (scripted [.ok, .ok] [false] (writing (BitVec.ofNat 8 start) none)).levelScript = false :: more ∧
      (writing (BitVec.ofNat 8 start) none).clkPin ≠ (writing (BitVec.ofNat 8 start) none).dioPin := by
  intro start hs
  simp only [List.mem_cons, List.not_mem_nil, or_false] at hs
  rcases hs with rfl | rfl | rfl | rfl <;> exact ⟨[], [], ⟨rfl, rfl, by decide, rfl⟩, rfl, rfl, by decide⟩

/-- WireByteOutOfPlace: just before and just after each place, IDLE, and an INIT at the same index. -/
theorem test_witness_WireByteOutOfPlace :
    ¬(2 ≤ (writing 1 none).seqIdx.toNat) ∧ ¬((writing 59 none).seqIdx.toNat ≤ 58) ∧ ¬(67 ≤ (writing 66 none).seqIdx.toNat) ∧
    ¬((writing 124 none).seqIdx.toNat ≤ 123) ∧ ¬((writing 181 none).seqIdx.toNat ≤ 180) ∧
    ¬(189 ≤ (writing 188 none).seqIdx.toNat) ∧ ¬((writing 246 none).seqIdx.toNat ≤ 245) ∧ ¬(idleState.fsm = .busy) ∧
    ¬((initing 2 none).op = .write) := by decide

/-- WireByteFrame: each byte with a next state, from a state that meets the invariant, and a third pin. -/
theorem test_witness_WireByteFrame :
    (∃ t, exec .wireDataCmd (writing 2 none) = .next t) ∧ (∃ t, exec (.wireAddrCmd 2) (writing 67 none) = .next t) ∧
    (∃ t, exec (.wireData 0x5B) (writing 124 none) = .next t) ∧ (∃ t, exec (.wireDispCtrl 7) (writing 189 none) = .next t) ∧
    (writing 2 none).Inv ∧ (20 : PinId) ≠ 18 ∧ (20 : PinId) ≠ 19 :=
  ⟨⟨_, rfl⟩, ⟨_, rfl⟩, ⟨_, rfl⟩, ⟨_, rfl⟩, writing_inv (by decide) (fun _ h => nomatch h), by decide, by decide⟩

/-- AckSampler: the four GETs, each with either level. -/
theorem test_witness_AckSampler :
    ∀ p ∈ ([(0, 53), (1, 118), (2, 175), (3, 240)] : List (Nat × BitVec 8)), ∀ b, ∃ t,
      NothingDue (scripted [] [b] (inWindow p.2 (some (.get 19)))) ∧
      ((scripted [] [b] (inWindow p.2 (some (.get 19)))).outstanding =
        some (.get (scripted [] [b] (inWindow p.2 (some (.get 19)))).dioPin)) ∧
      (drivenLevel 19 (scripted [] [b] (inWindow p.2 (some (.get 19))))).getD
        (outsideBit (scripted [] [b] (inWindow p.2 (some (.get 19))))) = b ∧
      step (scripted [] [b] (inWindow p.2 (some (.get 19)))) = .next t := by
  intro p hp b
  simp only [List.mem_cons, List.not_mem_nil, or_false] at hp
  rcases hp with rfl | rfl | rfl | rfl <;> exact ⟨_, ⟨rfl, rfl, rfl⟩, rfl, rfl, step_answer rfl rfl rfl rfl rfl⟩

/-- MissingAckTolerated and PinsDoNotSteer: a GET to be answered with the other level and another ACK_LOG, and with DIO driven. -/
theorem test_witness_SameBut :
    ∃ t, SameButSamples (scripted [] [true] (inWindow 53 (some (.get 19))))
        { scripted [] [false] (inWindow 53 (some (.get 19))) with ackLog := 0xF, levelDraws := 7, rdData := 1 } ∧
      SameButPins (scripted [] [true] (inWindow 53 (some (.get 19)))) (scripted [] [] (writing 53 (some (.get 19)))) ∧
      step (scripted [] [true] (inWindow 53 (some (.get 19)))) = .next t := ⟨_, rfl, rfl, rfl⟩

/-- V-H, both levels, at the windows of 0x44 and 0xC0 (bits 7 = 0 and 1), by the line levels around the CFG_IN: CLK stays 1. -/
theorem test_input_switch :
    edgeBetween ⟨false, true⟩ ⟨false, true⟩ ⟨.out, .high, .out, .low⟩ ⟨.out, .high, .input, .low⟩ = some .stop ∧
    edgeBetween ⟨false, false⟩ ⟨false, false⟩ ⟨.out, .high, .out, .high⟩ ⟨.out, .high, .input, .high⟩ = some .start ∧
    edgeBetween ⟨false, true⟩ ⟨false, true⟩ ⟨.out, .high, .out, .high⟩ ⟨.out, .high, .input, .high⟩ = none := by decide

/-- R34, R241: an undriven CLK (an output whose latch has no value) may be 1, and then a falling DIO is a start condition; two reads of an
undriven DIO are two draws. -/
theorem test_undriven_lines :
    edgeBetween ⟨true, false⟩ ⟨true, false⟩ ⟨.out, .undef, .out, .high⟩ ⟨.out, .undef, .out, .low⟩ = some .start ∧
    edgeBetween ⟨false, false⟩ ⟨true, false⟩ ⟨.out, .undef, .out, .high⟩ ⟨.out, .undef, .out, .low⟩ = none ∧
    edgeBetween ⟨true, false⟩ ⟨true, true⟩ ⟨.out, .high, .input, .low⟩ ⟨.out, .high, .input, .low⟩ = some .stop := by decide

/-- InitPinFailure: both indices. -/
theorem test_witness_InitPinFailure :
    (NothingDue (scripted [.fail] [] (initing 0 (some (.cfgOut 18)))) ∧ (initing 0 (some (.cfgOut 18))).seqIdx = 0 ∧
      (18 : PinId) = (initing 0 (some (.cfgOut 18))).clkPin ∧
      cfgAnswer (scripted [.fail] [] (initing 0 (some (.cfgOut 18)))) = .fail) ∧
    (NothingDue (scripted [.fail] [] (initing 1 (some (.cfgOut 19)))) ∧ (initing 1 (some (.cfgOut 19))).seqIdx = 1 ∧
      (19 : PinId) = (initing 1 (some (.cfgOut 19))).dioPin ∧
      cfgAnswer (scripted [.fail] [] (initing 1 (some (.cfgOut 19)))) = .fail) :=
  ⟨⟨⟨rfl, rfl, rfl⟩, rfl, rfl, rfl⟩, ⟨rfl, rfl, rfl⟩, rfl, rfl, rfl⟩

/-- WindowPinFailure: all eight mode switches; each is the action of the running sequence at its index. -/
theorem test_witness_WindowPinFailure :
    (∀ i ∈ [50, 115, 172, 237], NothingDue (scripted [.fail] [] (writing (BitVec.ofNat 8 i) (some (.cfgIn 19)))) ∧
      (writing (BitVec.ofNat 8 i) (some (.cfgIn 19))).seqIdx.toNat = i ∧
      cfgAnswer (scripted [.fail] [] (writing (BitVec.ofNat 8 i) (some (.cfgIn 19)))) = .fail ∧
      (curSeq (writing (BitVec.ofNat 8 i) none))[i]? = some (.cfgIn 19)) ∧
    (∀ i ∈ [58, 123, 180, 245], NothingDue (scripted [.fail] [] (writing (BitVec.ofNat 8 i) (some (.cfgOut 19)))) ∧
      (writing (BitVec.ofNat 8 i) (some (.cfgOut 19))).seqIdx.toNat = i ∧
      cfgAnswer (scripted [.fail] [] (writing (BitVec.ofNat 8 i) (some (.cfgOut 19)))) = .fail ∧
      (curSeq (writing (BitVec.ofNat 8 i) none))[i]? = some (.cfgOut 19)) := by
  constructor <;>
  · intro i hi
    simp only [List.mem_cons, List.not_mem_nil, or_false] at hi
    rcases hi with rfl | rfl | rfl | rfl <;> exact ⟨⟨rfl, rfl, rfl⟩, rfl, rfl, rfl⟩

/-- FaultLeftOnlyByReset: both clauses, a discarded CMD write and a reset. -/
theorem test_witness_FaultLeftOnlyByReset :
    (∃ t, (asks (.write 0 0x01001213) faultState).fsm = .fault ∧ step (asks (.write 0 0x01001213) faultState) = .next t ∧
      dueEvent (asks (.write 0 0x01001213) faultState) ≠ some .reset) ∧
    (∃ t, (meets .reset faultState).fsm = .fault ∧ step (meets .reset faultState) = .next t ∧
      dueEvent (meets .reset faultState) = some .reset) :=
  ⟨⟨_, rfl, rfl, by decide⟩, ⟨_, rfl, rfl, rfl⟩⟩

/-- ResetEvent: a reset in each FSM state, and a late response. -/
theorem test_witness_ResetEvent :
    dueEvent (meets .reset State.reset) = some .reset ∧ dueEvent (meets .reset idleState) = some .reset ∧
    dueEvent (meets .reset (writing 100 (some (.delay 1)))) = some .reset ∧ dueEvent (meets .reset faultState) = some .reset ∧
    dueEvent (meets (.lateResponse (.cfg .fail)) (initing 0 (some (.cfgOut 18)))) = some (.lateResponse (.cfg .fail)) := by decide

/-- ResetPrecedence: a reset that meets a CMD write in IDLE and in BUSY. -/
theorem test_witness_ResetPrecedence :
    (dueEvent (meets .reset (asks (.write 0 0x01001213) idleState)) = some .reset ∧
      (meets .reset (asks (.write 0 0x01001213) idleState)).host = [⟨0, .write 0 0x01001213⟩] ∧
      (meets .reset (asks (.write 0 0x01001213) idleState)).fsm ≠ .busy) ∧
    (dueEvent (meets .reset (asks (.write 0 0x01001213) (writing 3 none))) = some .reset ∧
      (meets .reset (asks (.write 0 0x01001213) (writing 3 none))).host = [⟨0, .write 0 0x01001213⟩] ∧
      (meets .reset (asks (.write 0 0x01001213) (writing 3 none))).fsm = .busy) := by decide

/-- UnansweredActionHangs: the event that an answer never comes, and a hang with a read and a CMD write of the host. -/
theorem test_witness_UnansweredActionHangs :
    (∃ t, dueEvent (meets .noAnswer (writing 53 (some (.get 19)))) = some .noAnswer ∧
      step (meets .noAnswer (writing 53 (some (.get 19)))) = .next t ∧ t.hung = true) ∧
    (∃ t, step (asks (.read 1) { writing 53 (some (.get 19)) with hung := true }) = .next t ∧ t.rdData = 0x00350076) ∧
    (∃ t, step (asks (.write 0 0) { writing 53 (some (.get 19)) with hung := true }) = .next t ∧ t.host = [⟨0, .write 0 0⟩]) :=
  ⟨⟨_, rfl, rfl, rfl⟩, ⟨_, rfl, rfl⟩, ⟨_, rfl, rfl⟩⟩

/-- HostRegisterAccess: the four reads and a write to each of the other three registers, here in BUSY. -/
theorem test_witness_HostRegisterAccess :
    (∀ r ∈ ([0, 1, 2, 3] : List (BitVec 2)), dueEvent (asks (.read r) (writing 3 none)) = none ∧
      (asks (.read r) (writing 3 none)).host = [⟨0, .read r⟩]) ∧
    (∀ r ∈ ([1, 2, 3] : List (BitVec 2)), r ≠ 0 ∧ dueEvent (asks (.write r 0xFFFFFFFF) (writing 3 none)) = none ∧
      (asks (.write r 0xFFFFFFFF) (writing 3 none)).host = [⟨0, .write r 0xFFFFFFFF⟩]) := by decide

/-- WaitPollsStatus: in BUSY and in IDLE. -/
theorem test_witness_WaitPollsStatus :
    (dueEvent (asks .poll (writing 3 none)) = none ∧ (asks .poll (writing 3 none)).host = [⟨0, .poll⟩] ∧
      (asks .poll (writing 3 none)).fsm = .busy) ∧
    (dueEvent (asks .poll idleState) = none ∧ (asks .poll idleState).host = [⟨0, .poll⟩] ∧ (asks .poll idleState).fsm ≠ .busy) := by
  decide

/-- AssemblerExpansions: the last operand that fits and the first that does not. -/
theorem test_witness_AssemblerExpansions :
    assemble (.init 255 0) = some [⟨0, .write 0 0x0100FF00⟩] ∧ assemble (.setbri 255) = some [⟨0, .write 0 0x020000FF⟩] ∧
    assemble (.wrseg 255 255) = some [⟨0, .write 0 0x0300FFFF⟩] ∧
    assemble (.wrglyph 3 8 1) = some [⟨0, .encode true 8⟩, ⟨0, .write 0 0x030003FF⟩] ∧
    assemble (.enc 255 1) = some [⟨0, .encode true 255⟩] ∧ assemble (.word 0xFFFFFFFF) = some [⟨0, .write 0 0xFFFFFFFF⟩] ∧
    assemble (.blank 255) = some [⟨0, .write 0 0x0300FF00⟩] ∧
    assemble (.init 256 0) = none ∧ assemble (.setbri 256) = none ∧ assemble (.wrseg 0 256) = none ∧
    assemble (.enc 256 0) = none ∧ assemble (.enc 0 2) = none ∧ assemble (.word 0x100000000) = none ∧
    assemble (.wrglyph 256 0 0) = none ∧ assemble (.wrglyph 0 256 0) = none ∧ assemble (.wrglyph 0 0 2) = none ∧
    assemble (.blank 256) = none := by decide

/-- The statements about every step, each of the step's cases from a state that meets the invariant: an action issued, an action
answered, a sequence completed, a fault, a command accepted, a reset. -/
theorem test_witness_step :
    (∃ t, step (writing 0 none) = .next t ∧ t.trace ≠ (writing 0 none).trace) ∧
    (∃ t, step (initing 2 (some (.set 18 true))) = .next t ∧ t.seqIdx = 3) ∧
    (∃ t, step (initing 5 (some settle)) = .next t ∧ t.fsm = .idle) ∧
    (∃ t, step (scripted [.fail] [] (writing 50 (some (.cfgIn 19)))) = .next t ∧ t.fsm = .fault) ∧
    (∃ t, step (asks (.write 0 0x030003FF) idleState) = .next t ∧ t.fsm = .busy) ∧
    (∃ t, step (meets .reset (writing 251 (some settle))) = .next t ∧ t.fsm = .uninit) :=
  ⟨⟨_, rfl, (fun h => nomatch h)⟩, ⟨_, rfl, rfl⟩, ⟨_, rfl, rfl⟩, ⟨_, rfl, rfl⟩, ⟨_, rfl, rfl⟩, ⟨_, rfl, rfl⟩⟩

/-- TraceGrowsInOrder, FsmTransitions, StepKeepsInv, SeqIdxAdvances and StepKeepsFaultInfo: a state that meets the invariant and steps. -/
theorem test_witness_inv_and_step :
    (∃ t, (writing 251 (some settle)).Inv ∧ step (writing 251 (some settle)) = .next t) ∧
    (∃ t, idleState.Inv ∧ step idleState = .next t) ∧ (∃ t, faultState.Inv ∧ step faultState = .next t) :=
  ⟨⟨_, writing_inv (by decide) (fun b h => by cases h; rfl), rfl⟩, ⟨_, test_witness_idle_inv, rfl⟩, ⟨_, test_witness_fault_inv, rfl⟩⟩

/-- StepKeepsFaultInfo: its own premise, in a state with a fault of the sequencer and in one without. -/
theorem test_witness_StepKeepsFaultInfo :
    (idleState.faultCause = .gpioRuntimeFail → False) ∧ (idleState.faultCause = .gpioInitFail → False) ∧
    (nextOf (step (scripted [.fail] [] (writing 245 (some (.cfgOut 19)))))).map (fun s => (s.faultCause, s.faultInfo, s.seqIdx)) =
      some (.gpioRuntimeFail, 0x030000F5, 245) ∧ 245 ∈ modeSwitches := by decide

/-- OperandsStableInBusy. -/
theorem test_witness_OperandsStableInBusy :
    ∃ t, (writing 3 none).fsm = .busy ∧ dueEvent (writing 3 none) ≠ some .reset ∧ step (writing 3 none) = .next t :=
  ⟨_, rfl, by decide, rfl⟩

/-- OtherPinsUntouched. -/
theorem test_witness_OtherPinsUntouched :
    ∃ t, (writing 53 (some (.get 19))).Inv ∧ step (writing 53 (some (.get 19))) = .next t ∧
      (20 : PinId) ≠ (writing 53 (some (.get 19))).clkPin ∧ (20 : PinId) ≠ (writing 53 (some (.get 19))).dioPin ∧
      ∀ w, dueEvent (writing 53 (some (.get 19))) ≠ some (.pinWrite 20 w) :=
  ⟨_, writing_inv (by decide) (fun b h => by cases h; rfl), rfl, by decide, by decide, (fun _ h => nomatch h)⟩

/-- StepKeepsWireInv: IDLE, and BUSY at the beginning of a segment write. -/
theorem test_witness_StepKeepsWireInv :
    (∃ t, idleState.Inv ∧ idleState.WireInv ∧ NoOtherAgent idleState ∧ step idleState = .next t) ∧
    (∃ t, (writing 0 none).Inv ∧ (writing 0 none).WireInv ∧ NoOtherAgent (writing 0 none) ∧ step (writing 0 none) = .next t) :=
  ⟨⟨_, test_witness_idle_inv, ⟨fun _ => rfl, (fun h => nomatch h)⟩, (fun _ _ h => nomatch h), rfl⟩,
    ⟨_, test_witness_writing_inv.1, ⟨(fun h => nomatch h), fun _ => ⟨idleHigh, fun _ => rfl, rfl⟩⟩, (fun _ _ h => nomatch h), rfl⟩⟩

/-- InitRun: an accepted INIT, with two `ok` responses to come. -/
theorem test_witness_InitRun :
    ∃ rest, Quiet (scripted [.ok, .ok] [] (initing 0 none)) ∧ (initing 0 none).fsm = .busy ∧ (initing 0 none).op = .init ∧
      (initing 0 none).seqIdx = 0 ∧ (initing 0 none).outstanding = none ∧ (initing 0 none).clkPin ≠ (initing 0 none).dioPin ∧
      (scripted [.ok, .ok] [] (initing 0 none)).cfgScript = .ok :: .ok :: rest :=
  ⟨[], ⟨rfl, rfl, rfl⟩, rfl, rfl, rfl, rfl, by decide, rfl⟩

/-- SegmentWriteRun and SegmentWriteDeterministic: an accepted segment write with eight `ok` responses and four levels to come, and
another with other levels and pins. -/
theorem test_witness_SegmentWriteRun :
    ∃ s s' : State, ∃ rest b0 b1 b2 b3 more,
      (Quiet s ∧ s.fsm = .busy ∧ s.op = .write ∧ s.seqIdx = 0 ∧ s.outstanding = none) ∧
      (Quiet s' ∧ s'.fsm = .busy ∧ s'.op = .write ∧ s'.seqIdx = 0 ∧ s'.outstanding = none) ∧
      s.cfgScript = List.replicate 8 .ok ++ rest ∧ s.levelScript = b0 :: b1 :: b2 :: b3 :: more ∧
      s'.clkPin = s.clkPin ∧ s'.dioPin = s.dioPin ∧ s'.position = s.position ∧ s'.bitmap = s.bitmap ∧
      s'.brightness = s.brightness ∧ s'.trace = s.trace ∧ s' ≠ s :=
  ⟨scripted (List.replicate 8 .ok) [false, true, true, false] (writing 0 none), inWindow 0 none, [], _, _, _, _, [],
    ⟨⟨rfl, rfl, rfl⟩, rfl, rfl, rfl, rfl⟩, ⟨⟨rfl, rfl, rfl⟩, rfl, rfl, rfl, rfl⟩, rfl, rfl, rfl, rfl, rfl, rfl, rfl, rfl, by decide⟩

/-- EveryRunEnds, StepNeverStops: in BUSY, in IDLE, in UNINIT after reset and in UNINIT after a reset that came after a legal INIT. -/
theorem test_witness_EveryRunEnds :
    ((writing 0 none).Inv ∧ Quiet (writing 0 none)) ∧ (idleState.Inv ∧ Quiet idleState) ∧
    (State.reset.Inv ∧ Quiet State.reset) ∧
    ({ State.reset with initWritten := true }.Inv ∧ Quiet { State.reset with initWritten := true }) :=
  ⟨⟨test_witness_writing_inv.1, rfl, rfl, rfl⟩, ⟨test_witness_idle_inv, rfl, rfl, rfl⟩,
    ⟨⟨by decide, by decide, by decide, fun _ => rfl, (fun h => nomatch h), (fun _ h => nomatch h), (fun h => nomatch h), by decide,
      fun _ => rfl, (fun h => by rcases h with h | h <;> cases h), (fun h => by rcases h with h | h <;> cases h)⟩, rfl, rfl, rfl⟩,
    ⟨⟨by decide, by decide, by decide, fun _ => rfl, (fun h => nomatch h), (fun _ h => nomatch h), (fun h => nomatch h), by decide,
      fun _ => rfl, (fun h => by rcases h with h | h <;> cases h), (fun h => by rcases h with h | h <;> cases h)⟩, rfl, rfl, rfl⟩⟩

/-- EveryRunEnds, its second clause: the writes of a legal INIT that a state takes, discards and drops at a reset are noted; a refused
`init 5, 5` and a held write are not. -/
theorem test_initWritten :
    [asks (.write 0 0x01001213) .reset, asks (.write 0 0x01001213) faultState, meets .reset (asks (.write 0 0x01001213) faultState),
      asks (.write 0 0x01000505) .reset, asks (.write 0 0x020000C8) .reset,
      asks (.write 0 0x01001213) { writing 0 none with initWritten := false }].map (fun s => (nextOf (step s)).map (·.initWritten)) =
      [some true, some true, some true, some false, some false, some false] := by decide

/-- R129: over after reset with no INIT written, not over in UNINIT after a legal INIT and a reset (R2 of V-R), over in FAULT. -/
theorem test_runOver :
    runOver State.reset ∧ ¬runOver (engineReset (writing 100 (some (.delay 1)))) ∧ runOver faultState ∧ runOver idleState := by
  refine ⟨⟨rfl, .inr (.inr ⟨rfl, rfl⟩)⟩, ?_, ⟨rfl, .inr (.inl rfl)⟩, ⟨rfl, .inl rfl⟩⟩
  rintro ⟨_, h | h | ⟨_, h⟩⟩ <;> cases h

end Sys2Proof.Tests
end

section
/-! PROOF. The family 00_scope: the encoder ROM and its port's output (R181 to R184), the delays of the engine's sequences (R243). -/

namespace Sys2Proof.Machine

/-! ### The encoder ROM -/

/-- From index 16 on the ROM has only the minus glyph (R181). -/
theorem rom_of_sixteen_le (P : Params) {idx : Byte} (h : 16 ≤ idx.toNat) :
    rom P idx = if idx = P.minusIdx then P.romGk.minus else 0x00 := by
  unfold rom
  split
  case h_17 => rfl
  all_goals omega

/-- A ROM entry is one of the source's or one of `ROM_GK` (R181). -/
theorem rom_source_or_romGk (P : Params) (idx : Byte) :
    rom P idx ∈ ([0x3F, 0x7F, 0x71, 0x00] : List Byte) ∨ rom P idx ∈ P.romGk.entries := by
  unfold rom
  split
  case h_17 => split <;> simp [RomGk.entries]
  all_goals simp [RomGk.entries]

/-- No entry of a legal ROM has the dot's bit set: the source's have not, and R6 asks it of `ROM_GK`. -/
theorem rom_getLsbD_seven {P : Params} (hP : P.Legal) (idx : Byte) : (rom P idx).getLsbD 7 = false := by
  obtain ⟨-, -, hgk⟩ := hP
  have hsource : ∀ b ∈ ([0x3F, 0x7F, 0x71, 0x00] : List Byte), b.getLsbD 7 = false := by decide
  exact (rom_source_or_romGk P idx).elim (hsource _) (hgk _)

theorem hw_legal : hw.Legal := by decide

/-- This hardware's minus glyph has index 16, so its ROM is blank from 17 on. -/
theorem rom_hw_of_seventeen_le {idx : Byte} (h : 17 ≤ idx.toNat) : rom hw idx = 0x00 := by
  have hne : idx ≠ hw.minusIdx := by
    rintro rfl
    exact absurd h (by decide)
  rw [rom_of_sixteen_le hw (by omega), if_neg hne]

/-! ### The dot (R183) -/

theorem applyDot_getLsbD_seven (bm : Byte) (flag : Bool) : (applyDot bm flag).getLsbD 7 = (bm.getLsbD 7 || flag) := by
  simp [applyDot]

theorem applyDot_getLsbD_of_lt (bm : Byte) (flag : Bool) {k : Nat} (hk : k < 7) :
    (applyDot bm flag).getLsbD k = bm.getLsbD k := by
  simp [applyDot, hk]

/-- Settles O12: this hardware's entries by evaluation, the rest for all legal parameters from what a ROM entry can be. -/
theorem romContents : Obligations.RomContents := by
  refine ⟨by decide, fun idx => rom_hw_of_seventeen_le, rom_getLsbD_seven hw_legal, fun P hP => ⟨rfl, rfl, rfl, ?_, ?_⟩⟩
  · intro idx h hne
    rw [rom_of_sixteen_le P h, if_neg hne]
  · intro dot idx
    refine ⟨?_, fun k hk => applyDot_getLsbD_of_lt _ _ hk⟩
    calc (encodeGlyph P dot idx).getLsbD 7
        = ((rom P idx).getLsbD 7 || dot) := applyDot_getLsbD_seven _ _
      _ = dot := by rw [rom_getLsbD_seven hP, Bool.false_or]

/-! ### The delays of the sequences -/

/-- The delays of two parts in a row add up, so those of a sequence are the sum over its parts (R160 to R163). -/
@[simp] theorem delayTotal_append (l m : List Action) : delayTotal (l ++ m) = delayTotal l + delayTotal m := by
  induction l with
  | nil => simp [delayTotal]
  | cons a l ih => cases a <;> simp [delayTotal, ih, Nat.add_assoc]

section
variable (c d : PinId) (pos : BitVec 3) (bm x : Byte) (bri : BitVec 3)

@[simp] theorem delayTotal_initSeq : delayTotal (initSeq c d) = 2 * Config.tDelayUs := by
  simp only [initSeq, settle, delayTotal]; omega

@[simp] theorem delayTotal_startSeq : delayTotal (startSeq d) = Config.tDelayUs := by
  simp only [startSeq, settle, delayTotal]; omega

@[simp] theorem delayTotal_stopSeq : delayTotal (stopSeq c d) = 3 * Config.tDelayUs := by
  simp only [stopSeq, settle, delayTotal]; omega

@[simp] theorem delayTotal_sendBit (b : Level) : delayTotal (sendBit c d b) = 3 * Config.tDelayUs := by
  simp only [sendBit, settle, delayTotal]; omega

@[simp] theorem delayTotal_ackSeq : delayTotal (ackSeq c d) = 3 * Config.tDelayUs := by
  simp only [ackSeq, settle, delayTotal]; omega

/-- Eight bits and the acknowledge window, three delays each (R159). -/
@[simp] theorem delayTotal_sendByte : delayTotal (sendByte c d x) = 27 * Config.tDelayUs := by
  simp only [sendByte, delayTotal_append, delayTotal_sendBit, delayTotal_ackSeq]; omega

@[simp] theorem delayTotal_t1 : delayTotal (t1 c d) = 31 * Config.tDelayUs := by
  simp only [t1, delayTotal_append, delayTotal_startSeq, delayTotal_sendByte, delayTotal_stopSeq]; omega

@[simp] theorem delayTotal_t2 : delayTotal (t2 c d pos bm) = 58 * Config.tDelayUs := by
  simp only [t2, delayTotal_append, delayTotal_startSeq, delayTotal_sendByte, delayTotal_stopSeq]; omega

@[simp] theorem delayTotal_t3 : delayTotal (t3 c d bri) = 31 * Config.tDelayUs := by
  simp only [t3, delayTotal_append, delayTotal_startSeq, delayTotal_sendByte, delayTotal_stopSeq]; omega

@[simp] theorem delayTotal_writeSeq : delayTotal (writeSeq c d pos bm bri) = 120 * Config.tDelayUs := by
  simp only [writeSeq, delayTotal_append, delayTotal_t1, delayTotal_t2, delayTotal_t3]; omega

end

/-- Settles O21, from the sum over the parts of each sequence. -/
theorem delayBounds : Obligations.DelayBounds :=
  ⟨Nat.succ_pos _, fun c d pos bm bri => ⟨delayTotal_writeSeq c d pos bm bri, delayTotal_initSeq c d⟩⟩

end Sys2Proof.Machine
end

section
/-! PROOF. The family 10_state: what a step does, once and for all, seen from the machine's registers and pins. -/

namespace Sys2Proof.Machine

/-- u has the engine's registers, the action in flight and the pins of s; what lies outside the machine may differ, but a legal INIT
that the host has written stays written. -/
structure SameMachine (s u : State) : Prop where
  fsm : u.fsm = s.fsm
  op : u.op = s.op
  seqIdx : u.seqIdx = s.seqIdx
  clkPin : u.clkPin = s.clkPin
  dioPin : u.dioPin = s.dioPin
  brightness : u.brightness = s.brightness
  position : u.position = s.position
  bitmap : u.bitmap = s.bitmap
  faultCause : u.faultCause = s.faultCause
  faultInfo : u.faultInfo = s.faultInfo
  outstanding : u.outstanding = s.outstanding
  hung : u.hung = s.hung
  dirs : u.dirs = s.dirs
  latches : u.latches = s.latches
  initWritten : s.initWritten = true → u.initWritten = true

/-- What the agent whose turn it is makes of u, with `due` the event that is due. -/
inductive Effect (due : Option Event) (u : State) : State → Prop
  /-- nothing that the engine or a pin could show -/
  | still : Effect due u u
  | reset (hdue : due = some .reset) : Effect due u (engineReset u)
  | hang (ho : u.outstanding ≠ none) : Effect due u (hang u)
  | pinWrite (p : PinId) (w : PinWrite) (hdue : due = some (.pinWrite p w)) : Effect due u (otherAgent p w u)
  /-- a word that `Check` refuses (R201) -/
  | refuse (c : FaultCause) (w : Word) (hready : u.fsm = .uninit ∨ u.fsm = .idle)
      (hc : c = .illegalCmd ∨ c = .notInit ∨ c = .posRange ∨ c = .pinConflict) : Effect due u (raiseFault c w u)
  | init (c d : PinId) (hready : u.fsm = .uninit ∨ u.fsm = .idle) (hcd : c ≠ d) (hw : u.initWritten = true) :
      Effect due u (performInit c d u)
  | setBrightness (l : Byte) (hidle : u.fsm = .idle) : Effect due u (performSetBrightness l u)
  | writeSegmentRaw (p b : Byte) (hidle : u.fsm = .idle) (hp : p.toNat < hw.nDigits) :
      Effect due u (performWriteSegmentRaw p b u)
  | answer (a : Action) (hbusy : u.fsm = .busy) (hhung : u.hung = false) (ho : u.outstanding = some a) :
      Effect due u (answer a u)
  | issue (a : Action) (hbusy : u.fsm = .busy) (ho : u.outstanding = none)
      (ha : (curSeq u)[u.seqIdx.toNat]? = some a) : Effect due u (issue a u)

theorem ne_busy_of_ready {u : State} (h : u.fsm = .uninit ∨ u.fsm = .idle) : u.fsm ≠ .busy := by
  rcases h with h | h <;> simp [h]

theorem ne_fault_of_ready {u : State} (h : u.fsm = .uninit ∨ u.fsm = .idle) : u.fsm ≠ .fault := by
  rcases h with h | h <;> simp [h]

/-- A cause of acceptance (R201) is a cause, and none of the sequencer's. -/
theorem causes_of_refuse {c : FaultCause} (h : c = .illegalCmd ∨ c = .notInit ∨ c = .posRange ∨ c = .pinConflict) :
    c ≠ .noFault ∧ c ≠ .gpioInitFail ∧ c ≠ .gpioRuntimeFail := by
  rcases h with rfl | rfl | rfl | rfl <;> simp

theorem runCause_ne_noFault (op : Op) : runCause op ≠ .noFault := by
  cases op <;> simp [runCause]

namespace SameMachine

variable {s u : State}

theorem popEvent (s : State) : SameMachine s (popEvent s) := by constructor <;> simp

theorem elapse (s : State) : SameMachine s (elapse s) := by constructor <;> simp

theorem noteOp_popHost (op : HostOp) (s : State) : SameMachine s (noteOp op (popHost s)) := by
  constructor <;> simp +contextual

theorem hostRead (reg : BitVec 2) (h : SameMachine s u) : SameMachine s (hostRead reg u) :=
  { h with }

theorem driveEncoder (dot : Bool) (idx : Byte) (h : SameMachine s u) : SameMachine s (driveEncoder dot idx u) :=
  { h with }

theorem pollOnce (h : SameMachine s u) : SameMachine s (pollOnce u) := by
  rcases pollOnce_cases u with hp | hp
  · rw [hp]; exact { h with }
  · rw [hp]; exact h.hostRead 1

theorem curSeq_eq (h : SameMachine s u) : curSeq u = curSeq s :=
  curSeq_congr h.op h.clkPin h.dioPin h.position h.bitmap h.brightness

/-- The machine's invariant reads only what is the same (`State.Inv.of_same`). -/
theorem inv (h : SameMachine s u) (I : s.Inv) : u.Inv :=
  I.of_same h.dirs h.latches h.fsm h.op h.seqIdx h.clkPin h.dioPin h.brightness h.position h.bitmap h.faultCause h.faultInfo
    h.outstanding h.hung h.initWritten

theorem dirOf_eq (h : SameMachine s u) (p : PinId) : dirOf p u = dirOf p s := dirOf_congr h.dirs

theorem latchOf_eq (h : SameMachine s u) (p : PinId) : latchOf p u = latchOf p s := latchOf_congr h.latches

theorem wiresOf_eq (h : SameMachine s u) : wiresOf u = wiresOf s := by
  simp only [wiresOf, h.clkPin, h.dioPin, h.dirOf_eq, h.latchOf_eq]

/-- So does the wires' invariant. -/
theorem wireInv (h : SameMachine s u) (W : s.WireInv) : u.WireInv := by
  simpa only [State.WireInv, h.fsm, h.op, h.seqIdx, h.clkPin, h.dioPin, h.curSeq_eq, h.wiresOf_eq] using W

end SameMachine

/-- An event's turn has one of the effects. -/
theorem onEvent_effect (ev : Event) (s : State) :
    ∃ u, SameMachine s u ∧ Effect (some ev) u (onEvent ev (popEvent s)) := by
  by_cases hev : ev = .reset
  · subst hev
    obtain ⟨u, hu, ht⟩ := onEvent_reset (popEvent s)
    rw [ht]
    rcases hu with rfl | ⟨op, rfl⟩
    · exact ⟨_, .popEvent s, .reset rfl⟩
    · refine ⟨_, ?_, .reset rfl⟩
      constructor <;> simp +contextual
  · refine ⟨_, .popEvent s, ?_⟩
    rcases onEvent_of_ne_reset hev (popEvent s) with ht | ⟨-, ho, ht⟩ | ⟨p, ⟨d, rfl, -⟩ | ⟨l, rfl, -⟩⟩
    · rw [ht]; exact .still
    · rw [ht]; exact .hang ho
    · exact .pinWrite p (.dir d) rfl
    · exact .pinWrite p (.latch l) rfl

/-- So has a host operation's. -/
theorem hostMove_effect {due : Option Event} {op : HostOp} {s t : State} (h : hostMove op (noteOp op (popHost s)) = .next t) :
    ∃ u, SameMachine s u ∧ Effect due u t := by
  have hu := SameMachine.noteOp_popHost op s
  obtain ⟨t', ht', hc⟩ := hostMove_cases op (noteOp op (popHost s))
  obtain rfl : t' = t := by simpa [ht'] using h
  rcases hc with rfl | ⟨reg, rfl⟩ | ⟨dot, idx, rfl⟩ | rfl | ⟨hready, hc⟩
  · exact ⟨_, hu, .still⟩
  · exact ⟨_, hu.hostRead reg, .still⟩
  · exact ⟨_, hu.driveEncoder dot idx, .still⟩
  · exact ⟨_, hu.pollOnce, .still⟩
  · refine ⟨_, hu, ?_⟩
    rcases hc with ⟨c, w, hc, rfl⟩ | ⟨c, d, hcd, hw, rfl⟩ | ⟨hidle, l, rfl⟩ | ⟨hidle, p, b, hp, rfl⟩
    · exact .refuse c w hready hc
    · exact .init c d hready hcd (by simp [hw])
    · exact .setBrightness l hidle
    · exact .writeSegmentRaw p b hidle hp

/-- Everything one step can do to the engine and the pins: one of the ten effects, on a state that only differs outside. -/
theorem step_effect {s t : State} (h : step s = .next t) : ∃ u, SameMachine s u ∧ Effect (dueEvent s) u t := by
  rcases step_cases h with ⟨ev, he, rfl⟩ | ⟨-, op, -, hm⟩ | ⟨-, -, -, rfl⟩ | ⟨-, -, hb, hu, a, ho, rfl⟩ |
    ⟨-, -, hb, -, ho, a, ha, rfl⟩
  · rw [he]; exact onEvent_effect ev s
  · exact hostMove_effect hm
  · exact ⟨_, .elapse s, .still⟩
  · exact ⟨_, .elapse s, .answer a hb hu ho⟩
  · exact ⟨_, .elapse s, .issue a hb ho ha⟩

/-! ### The machine's invariant -/

section
variable {u : State} (I : u.Inv)
include I

namespace State.Inv

theorem outstanding_none (hb : u.fsm ≠ .busy) : u.outstanding = none := by
  rcases ho : u.outstanding with _ | a
  · rfl
  · exact absurd (I.outstanding_is a ho).1 hb

theorem not_hung (ho : u.outstanding = none) : u.hung = false := by
  cases hh : u.hung
  · rfl
  · exact absurd ho (I.hung_is hh)

theorem noFault (hf : u.fsm ≠ .fault) : u.faultCause = .noFault := I.cause_iff.2 hf

/-- R24: SEQ_IDX + 1 does not wrap, since no sequence is longer than 252. -/
theorem seqIdx_succ_toNat (hb : u.fsm = .busy) : (u.seqIdx + 1).toNat = u.seqIdx.toNat + 1 := by
  have hlt := I.idx_busy hb
  have hlen : (curSeq u).length ≤ 252 := by rw [curSeq_length]; cases u.op <;> simp
  rw [BitVec.toNat_add, show (1 : BitVec 8).toNat = 1 from rfl]
  omega

/-- A state of the same pins and position, in FAULT with a cause and with nothing in flight, meets the invariant if u does (R202). -/
theorem of_fault {t : State} (hd : t.dirs = u.dirs) (hl : t.latches = u.latches) (hp : t.position = u.position)
    (hf : t.fsm = .fault) (hc : t.faultCause ≠ .noFault) (ho : t.outstanding = none) (hh : t.hung = false) : t.Inv where
  dirs_wf := hd ▸ I.dirs_wf
  latches_wf := hl ▸ I.latches_wf
  position_lt := hp ▸ I.position_lt
  idx_rest := by simp [hf]
  idx_busy := by simp [hf]
  outstanding_is := by simp [ho]
  hung_is := by simp [hh]
  cause_iff := by simp [hf, hc]
  info_zero := by simp [hc]
  pins_differ := by simp [hf]
  init_written := by simp [hf]

theorem raiseFault {c : FaultCause} (w : Word) (hready : u.fsm = .uninit ∨ u.fsm = .idle) (hc : c ≠ .noFault) :
    (raiseFault c w u).Inv := by
  have ho := I.outstanding_none (ne_busy_of_ready hready)
  exact I.of_fault rfl rfl rfl rfl hc ho (I.not_hung ho)

theorem engineReset : (engineReset u).Inv where
  dirs_wf := I.dirs_wf
  latches_wf := I.latches_wf
  position_lt := (by decide : (0#3).toNat < hw.nDigits)
  idx_rest := by simp
  idx_busy := by simp
  outstanding_is := by simp
  hung_is := by simp
  cause_iff := by simp
  info_zero := by simp
  pins_differ := by simp
  init_written := by simp

theorem hang (ho : u.outstanding ≠ none) : (hang u).Inv :=
  { I with hung_is := fun _ => ho }

theorem otherAgent (p : PinId) (w : PinWrite) : (otherAgent p w u).Inv := by
  cases w with
  | dir d => exact { I with dirs_wf := pinInsert_wf p d I.dirs_wf }
  | latch l => exact { I with latches_wf := pinInsert_wf p l I.latches_wf }

theorem performInit {c d : PinId} (hready : u.fsm = .uninit ∨ u.fsm = .idle) (hcd : c ≠ d) (hw : u.initWritten = true) :
    (performInit c d u).Inv := by
  have ho := I.outstanding_none (ne_busy_of_ready hready)
  have hc := I.noFault (ne_fault_of_ready hready)
  exact {
    dirs_wf := I.dirs_wf
    latches_wf := I.latches_wf
    position_lt := I.position_lt
    idx_rest := by simp
    idx_busy := by simp [curSeq_length]
    outstanding_is := by simp [ho]
    hung_is := by simp [I.not_hung ho]
    cause_iff := by simp [hc]
    info_zero := I.info_zero
    pins_differ := fun _ => hcd
    init_written := fun _ => hw }

theorem performSetBrightness (l : Byte) (hidle : u.fsm = .idle) : (performSetBrightness l u).Inv := by
  have ho := I.outstanding_none (by simp [hidle])
  exact { I with
    idx_busy := by simp [hidle]
    outstanding_is := by simp [ho] }

theorem performWriteSegmentRaw {p : Byte} (b : Byte) (hidle : u.fsm = .idle) (hp : p.toNat < hw.nDigits) :
    (performWriteSegmentRaw p b u).Inv := by
  have ho := I.outstanding_none (by simp [hidle])
  have hc := I.noFault (by simp [hidle])
  have hpos : (positionOf p).toNat < hw.nDigits := by
    rw [positionOf, BitVec.extractLsb'_toNat]
    exact lt_of_le_of_lt (Nat.mod_le _ _) (by simpa using hp)
  exact {
    dirs_wf := I.dirs_wf
    latches_wf := I.latches_wf
    position_lt := hpos
    idx_rest := by simp
    idx_busy := by simp [curSeq_length]
    outstanding_is := by simp [ho]
    hung_is := by simp [I.not_hung ho]
    cause_iff := by simp [hc]
    info_zero := I.info_zero
    pins_differ := fun _ => I.pins_differ (.inl hidle)
    init_written := fun _ => I.init_written (.inl hidle) }

theorem answer (a : Action) (hbusy : u.fsm = .busy) (hhung : u.hung = false) : (answer a u).Inv := by
  have hd : PinMap.wf (Machine.answer a u).dirs := by simpa using applied_dirs_wf I.dirs_wf
  have hl : PinMap.wf (Machine.answer a u).latches := by simpa using applied_latches_wf I.latches_wf
  by_cases hr : respond a u = .cfg .fail
  · obtain ⟨hcause, -, hfsm, -, -, hdirs, hlatches⟩ := answer_of_fail hr
    exact I.of_fault hdirs hlatches (by simp) hfsm (hcause ▸ runCause_ne_noFault u.op) (by simp) (by simp [hhung])
  · obtain ⟨hcause, hinfo, hfsm, hidx, -⟩ := answer_of_ne_fail hr
    have hc := I.noFault (by simp [hbusy])
    have hlt := I.idx_busy hbusy
    exact {
      dirs_wf := hd
      latches_wf := hl
      position_lt := by simpa using I.position_lt
      idx_rest := by rw [hfsm, hidx]; split <;> simp [hbusy]
      idx_busy := by
        rw [hfsm, hidx, curSeq_answer]
        split
        · simp
        · intro _; rw [I.seqIdx_succ_toNat hbusy]; omega
      outstanding_is := by simp
      hung_is := by simp [hhung]
      cause_iff := by rw [hcause, hfsm]; split <;> simp [hbusy, hc]
      info_zero := by rw [hcause, hinfo]; exact I.info_zero
      pins_differ := fun _ => by simpa using I.pins_differ (.inr hbusy)
      init_written := fun _ => by simpa using I.init_written (.inr hbusy) }

theorem issue {a : Action} (hbusy : u.fsm = .busy) (ha : (curSeq u)[u.seqIdx.toNat]? = some a) : (issue a u).Inv :=
  { I with
    outstanding_is := by
      intro b hb
      obtain rfl : a = b := by simpa using hb
      exact ⟨hbusy, ha⟩
    hung_is := by simp }

/-- Each of the ten effects keeps the invariant. -/
theorem of_effect {due : Option Event} {t : State} (e : Effect due u t) : t.Inv := by
  cases e with
  | still => exact I
  | reset => exact I.engineReset
  | hang ho => exact I.hang ho
  | pinWrite p w => exact I.otherAgent p w
  | refuse c w hready hc => exact I.raiseFault w hready (causes_of_refuse hc).1
  | init c d hready hcd hw => exact I.performInit hready hcd hw
  | setBrightness l hidle => exact I.performSetBrightness l hidle
  | writeSegmentRaw p b hidle hp => exact I.performWriteSegmentRaw b hidle hp
  | answer a hbusy hhung => exact I.answer a hbusy hhung
  | issue a hbusy ho ha => exact I.issue hbusy ha

end State.Inv
end

/-- Settles O53: a step is one of the ten effects, and each keeps the invariant. -/
theorem stepKeepsInv : Obligations.StepKeepsInv := by
  intro s t I h
  obtain ⟨u, hu, e⟩ := step_effect h
  exact (hu.inv I).of_effect e

/-- Settles O56: the one way to stop is an index past the sequence's end, which the invariant excludes. -/
theorem stepNeverStops : Obligations.StepNeverStops := by
  refine ⟨fun s r hr => ?_, fun s I => ?_⟩
  · rcases step_next_or_noAction s with ⟨t, ht⟩ | ⟨hn, -⟩
    · simp [ht] at hr
    · simp [hn] at hr
  · rcases step_next_or_noAction s with ht | ⟨-, hb, -, ha⟩
    · exact ht
    · exact absurd (I.idx_busy hb) (by simpa using ha)

/-! ### FSM, SEQ_IDX and the other pins -/

/-- Settles O48, effect by effect. -/
theorem fsmTransitions : Obligations.FsmTransitions := by
  intro s t h
  obtain ⟨u, hu, e⟩ := step_effect h
  rw [← hu.fsm, ← hu.seqIdx, ← hu.curSeq_eq]
  cases e with
  | still => exact .inl rfl
  | reset hdue => exact .inr (.inr (.inr (.inr ⟨rfl, hdue⟩)))
  | hang => exact .inl rfl
  | pinWrite p w => cases w <;> exact .inl rfl
  | refuse c w hready hc => exact .inr (.inr (.inr (.inl ⟨ne_fault_of_ready hready, rfl, (causes_of_refuse hc).1⟩)))
  | init c d hready => exact .inr (.inl ⟨hready, rfl, rfl⟩)
  | setBrightness => exact .inl rfl
  | writeSegmentRaw p b hidle => exact .inr (.inl ⟨.inr hidle, rfl, rfl⟩)
  | answer a hbusy =>
    by_cases hr : respond a u = .cfg .fail
    · obtain ⟨hcause, -, hfsm, -⟩ := answer_of_fail hr
      exact .inr (.inr (.inr (.inl ⟨by simp [hbusy], hfsm, hcause ▸ runCause_ne_noFault u.op⟩)))
    · obtain ⟨-, -, hfsm, -⟩ := answer_of_ne_fail hr
      split at hfsm
      case isTrue hlast => exact .inr (.inr (.inl ⟨hbusy, hfsm, hlast⟩))
      case isFalse => exact .inl hfsm
  | issue => exact .inl rfl

/-- Settles O49: the index after an answer is below the length of the sequence, so adding 1 does not wrap. -/
theorem seqIdxAdvances : Obligations.SeqIdxAdvances := by
  intro s t I h
  obtain ⟨u, hu, e⟩ := step_effect h
  have Iu := hu.inv I
  rw [← hu.fsm, ← hu.seqIdx]
  cases e with
  | still => exact .inl rfl
  | reset hdue => exact .inr (.inr ⟨rfl, .inr (.inr hdue)⟩)
  | hang => exact .inl rfl
  | pinWrite p w => cases w <;> exact .inl rfl
  | refuse => exact .inl rfl
  | init c d hready => exact .inr (.inr ⟨rfl, .inr (.inl ⟨rfl, ne_busy_of_ready hready⟩)⟩)
  | setBrightness => exact .inl rfl
  | writeSegmentRaw p b hidle => exact .inr (.inr ⟨rfl, .inr (.inl ⟨rfl, by simp [hidle]⟩)⟩)
  | answer a hbusy hhung =>
    by_cases hr : respond a u = .cfg .fail
    · obtain ⟨-, -, -, hidx, -⟩ := answer_of_fail hr
      exact .inl hidx
    · obtain ⟨-, -, hfsm, hidx, -⟩ := answer_of_ne_fail hr
      split at hidx
      case isTrue hlast => exact .inr (.inr ⟨hidx, .inl (by simp [hfsm, hlast])⟩)
      case isFalse hlast =>
        have hbusy' : (answer a u).fsm = .busy := by simp [hfsm, hlast, hbusy]
        refine .inr (.inl ⟨hbusy, hbusy', ?_, (Iu.answer a hbusy hhung).idx_busy hbusy'⟩)
        rw [hidx, Iu.seqIdx_succ_toNat hbusy]
  | issue => exact .inl rfl

/-- Settles O51: only another agent and an answered action write a pin, and the action is the running sequence's. -/
theorem otherPinsUntouched : Obligations.OtherPinsUntouched := by
  intro s t p I h hc hd hno
  obtain ⟨u, hu, e⟩ := step_effect h
  rw [← hu.dirOf_eq, ← hu.latchOf_eq]
  rw [← hu.clkPin] at hc
  rw [← hu.dioPin] at hd
  cases e with
  | pinWrite q w hdue =>
    have hpq : p ≠ q := by rintro rfl; exact hno w hdue
    cases w with
    | dir d => exact ⟨dirOf_setDir_ne hpq d u, rfl⟩
    | latch l => exact ⟨rfl, latchOf_setLatch_ne hpq l u⟩
  | answer a hbusy hhung ho =>
    obtain ⟨-, ha⟩ := (hu.inv I).outstanding_is a ho
    rw [dirOf_congr (answer_dirs a u), latchOf_congr (answer_latches a u)]
    exact applied_other_pin ha hc hd
  | _ => exact ⟨rfl, rfl⟩

end Sys2Proof.Machine
end

section
/-! PROOF. The family 10_state: the line levels after each part of a sequence (R164), the wires' invariant (R37), and what FAULT_INFO
holds after a fault of the sequencer (R203). -/

namespace Sys2Proof.Machine

/-! ### The wires after each part of a sequence -/

section
variable {c d : PinId} (hcd : c ≠ d) (w : Wires)
include hcd

theorem wiresAfter_startSeq : wiresAfter c d w (startSeq d) = { w with dioLatch := .low } := by
  simp [startSeq, settle, wireStep, latchOfLevel, hcd.symm]

theorem wiresAfter_stopSeq : wiresAfter c d w (stopSeq c d) = { w with clkLatch := .high, dioLatch := .high } := by
  simp [stopSeq, settle, wireStep, latchOfLevel, hcd.symm]

theorem wiresAfter_sendBit (b : Level) :
    wiresAfter c d w (sendBit c d b) = { w with clkLatch := .high, dioLatch := latchOfLevel b } := by
  simp [sendBit, settle, wireStep, latchOfLevel, hcd.symm]

theorem wiresAfter_ackSeq : wiresAfter c d w (ackSeq c d) = { w with clkLatch := .low, dioDir := .out } := by
  simp [ackSeq, settle, wireStep, latchOfLevel, hcd.symm]

theorem wiresAfter_initSeq : wiresAfter c d w (initSeq c d) = idleHigh := by
  simp [initSeq, settle, wireStep, latchOfLevel, hcd.symm, idleHigh]

/-- A byte ends with its last bit, bit 7, in the latch of DIO and its window behind it. -/
theorem wiresAfter_sendByte (x : Byte) : wiresAfter c d w (sendByte c d x) =
    { w with clkLatch := .low, dioDir := .out, dioLatch := latchOfLevel (x.getLsbD 7) } := by
  simp only [sendByte, wiresAfter_append, wiresAfter_sendBit hcd, wiresAfter_ackSeq hcd]

/-- Every transaction of a segment write ends in a STOP, which leaves both lines at 1 (R164). -/
theorem wiresAfter_writeSeq (pos : BitVec 3) (bm : Byte) (bri : BitVec 3) :
    wiresAfter c d idleHigh (writeSeq c d pos bm bri) = idleHigh := by
  simp only [writeSeq, t1, t2, t3, wiresAfter_append, wiresAfter_startSeq hcd, wiresAfter_sendByte hcd,
    wiresAfter_stopSeq hcd, idleHigh]

end

/-- Settles O17, part by part. -/
theorem lineLevels : Obligations.LineLevels := by
  intro c d hcd
  refine ⟨wiresAfter_startSeq hcd _, wiresAfter_sendBit hcd, fun w b => ?_, wiresAfter_ackSeq hcd, fun w x hc hd => ?_,
    fun l => wiresAfter_stopSeq hcd _, wiresAfter_initSeq hcd, wiresAfter_writeSeq hcd⟩
  · rw [wiresAfter_append, wiresAfter_sendBit hcd]
    simp [wireStep, hcd.symm]
  · rw [wiresAfter_sendByte hcd, hc]

/-! ### The wires' invariant -/

theorem dirOf_setDir (p q : PinId) (d : Dir) (s : State) : dirOf q (setDir p d s) = if p = q then d else dirOf q s := by
  split
  case isTrue h => rw [h, dirOf_setDir_self]
  case isFalse h => exact dirOf_setDir_ne (Ne.symm h) d s

theorem latchOf_setLatch (p q : PinId) (l : Latch) (s : State) :
    latchOf q (setLatch p l s) = if p = q then l else latchOf q s := by
  split
  case isTrue h => rw [h, latchOf_setLatch_self]
  case isFalse h => exact latchOf_setLatch_ne (Ne.symm h) l s

/-- A direction written to a pin that is the engine's shows in the wires, and no other (R33). -/
theorem wiresOf_setDir {s : State} (hcd : s.clkPin ≠ s.dioPin) (p : PinId) (d : Dir) :
    wiresOf (setDir p d s) =
      if p = s.clkPin then { wiresOf s with clkDir := d }
      else if p = s.dioPin then { wiresOf s with dioDir := d } else wiresOf s := by
  simp only [wiresOf, dirOf_setDir, latchOf_setDir, setDir_clkPin, setDir_dioPin]
  split_ifs <;> simp_all

/-- A latch likewise. -/
theorem wiresOf_setLatch {s : State} (hcd : s.clkPin ≠ s.dioPin) (p : PinId) (l : Latch) :
    wiresOf (setLatch p l s) =
      if p = s.clkPin then { wiresOf s with clkLatch := l }
      else if p = s.dioPin then { wiresOf s with dioLatch := l } else wiresOf s := by
  simp only [wiresOf, latchOf_setLatch, dirOf_setLatch, setLatch_clkPin, setLatch_dioPin]
  split_ifs <;> simp_all

theorem configured_of_ok {s : State} (h : cfgAnswer s = .ok) (p : PinId) (d : Dir) :
    configured p d s = setDir p d (consumeCfg s) := by
  simp [configured, h]

theorem cfgAnswer_ok_of_ne_fail {s : State} (h : ¬ cfgAnswer s = .fail) : cfgAnswer s = .ok := by
  cases hr : cfgAnswer s
  · rfl
  · exact absurd hr h

/-- An action that does not fail does to the engine's two pins what `wireStep` says (R33, R67 to R71). -/
theorem wiresOf_answer {a : Action} {s : State} (hcd : s.clkPin ≠ s.dioPin) (h : respond a s ≠ .cfg .fail) :
    wiresOf (answer a s) = wireStep s.clkPin s.dioPin (wiresOf s) a := by
  have hout : wiresOf (answer a s) = wiresOf (applied a s) := by simp [wiresOf, dirOf, latchOf]
  rw [hout]
  cases a with
  | cfgOut p =>
    have hok := cfgAnswer_ok_of_ne_fail (s := s) (by simpa [respond] using h)
    exact (congrArg wiresOf (configured_of_ok hok p .out)).trans (wiresOf_setDir (s := consumeCfg s) hcd p .out)
  | cfgIn p =>
    have hok := cfgAnswer_ok_of_ne_fail (s := s) (by simpa [respond] using h)
    exact (congrArg wiresOf (configured_of_ok hok p .input)).trans (wiresOf_setDir (s := consumeCfg s) hcd p .input)
  | set p v => exact wiresOf_setLatch hcd p (latchOfLevel v)
  | get p => simp only [applied, wireStep]; split <;> rfl
  | delay n => rfl

namespace State.WireInv

variable {u : State}

/-- In FAULT and in UNINIT the invariant says nothing. -/
theorem of_not_running {t : State} (h : t.fsm = .uninit ∨ t.fsm = .fault) : t.WireInv := by
  rcases h with h | h <;> simp [State.WireInv, h]

/-- The answer to the action at SEQ_IDX: the wires after one action more, which after the last are both at 1 (R37). -/
theorem answer {a : Action} (I : u.Inv) (W : u.WireInv) (hbusy : u.fsm = .busy) (ho : u.outstanding = some a) :
    (answer a u).WireInv := by
  by_cases hr : respond a u = .cfg .fail
  · obtain ⟨-, -, hfsm, -⟩ := answer_of_fail hr
    exact of_not_running (.inr hfsm)
  · obtain ⟨-, -, hfsm, hidx, -⟩ := answer_of_ne_fail hr
    obtain ⟨-, ha⟩ := I.outstanding_is a ho
    have hcd := I.pins_differ (.inr hbusy)
    obtain ⟨w, hw, hwires⟩ := W.2 hbusy
    have hnext : wiresOf (Machine.answer a u) =
        wiresAfter u.clkPin u.dioPin w ((curSeq u).take (u.seqIdx.toNat + 1)) := by
      rw [wiresOf_answer hcd hr, hwires, List.take_add_one, ha, wiresAfter_append]
      rfl
    split at hfsm
    case isTrue hlast =>
      refine ⟨fun _ => ?_, by simp [hfsm]⟩
      rw [hnext, hlast, List.take_length]
      cases hop : u.op with
      | init => simpa only [curSeq, hop] using wiresAfter_initSeq hcd w
      | write => simpa only [curSeq, hop, hw hop] using wiresAfter_writeSeq hcd _ _ _
    case isFalse hmore =>
      rw [if_neg hmore] at hidx
      refine ⟨by simp [hfsm, hbusy], fun _ => ⟨w, by simpa using hw, ?_⟩⟩
      rw [hnext, hidx, I.seqIdx_succ_toNat hbusy]
      simp

/-- Each of the ten effects but another agent's keeps the wires' invariant. -/
theorem of_effect {due : Option Event} {t : State} (I : u.Inv) (W : u.WireInv) (hno : ∀ p w, due ≠ some (.pinWrite p w))
    (e : Effect due u t) : t.WireInv := by
  cases e with
  | still => exact W
  | reset => exact of_not_running (.inl rfl)
  | hang => exact W
  | pinWrite p w hdue => exact absurd hdue (hno p w)
  | refuse => exact of_not_running (.inr rfl)
  | init c d => exact ⟨(fun h => nomatch h), fun _ => ⟨_, (fun h => nomatch h), rfl⟩⟩
  | setBrightness l hidle => exact ⟨fun _ => W.1 hidle, by simp [hidle]⟩
  | writeSegmentRaw p b hidle => exact ⟨(fun h => nomatch h), fun _ => ⟨idleHigh, fun _ => rfl, W.1 hidle⟩⟩
  | answer a hbusy _ ho => exact W.answer I hbusy ho
  | issue => exact W

end State.WireInv

/-- Settles O54: a step is one of the ten effects, and each but another agent's keeps the wires' invariant. -/
theorem stepKeepsWireInv : Obligations.StepKeepsWireInv := by
  intro s t I W hno h
  obtain ⟨u, hu, e⟩ := step_effect h
  exact (hu.wireInv W).of_effect (hu.inv I) hno e

/-! ### What FAULT_INFO holds after a fault of the sequencer -/

/-- The action switches the mode of a pin, so it is one that can fail (R67, R68). -/
def isSwitch (a : Action) : Bool := isCfgOut a || isCfgIn a

/-- The list has a mode switch at index i. -/
def SwitchAt (l : List Action) (i : Nat) : Prop := ∃ a, l[i]? = some a ∧ isSwitch a = true

theorem isSwitch_of_fail {a : Action} {s : State} (h : respond a s = .cfg .fail) : isSwitch a = true := by
  rcases ((respond_eq_fail_iff a s).1 h).1 with ⟨p, rfl⟩ | ⟨p, rfl⟩ <;> rfl

theorem switchAt_nil (i : Nat) : ¬ SwitchAt [] i := by simp [SwitchAt]

theorem switchAt_cons (a : Action) (l : List Action) (i : Nat) :
    SwitchAt (a :: l) i ↔ (i = 0 ∧ isSwitch a = true) ∨ (1 ≤ i ∧ SwitchAt l (i - 1)) := by
  cases i <;> simp [SwitchAt]

theorem switchAt_append (l m : List Action) (i : Nat) :
    SwitchAt (l ++ m) i ↔ SwitchAt l i ∨ (l.length ≤ i ∧ SwitchAt m (i - l.length)) := by
  by_cases hi : i < l.length
  · simp [SwitchAt, List.getElem?_append_left hi, hi.not_ge]
  · simp only [SwitchAt, List.getElem?_append_right (not_lt.1 hi), List.getElem?_eq_none (not_lt.1 hi)]
    simp [not_lt.1 hi]

section
variable (c d : PinId)

/-- INIT_SEQ switches the mode of its pins at 0 and 1 (R151). -/
theorem switchAt_initSeq (i : Nat) : SwitchAt (initSeq c d) i ↔ i = 0 ∨ i = 1 := by
  simp only [initSeq, settle, switchAt_cons, switchAt_nil, isSwitch, isCfgOut, isCfgIn, Bool.or_self, Bool.or_false,
    Bool.false_eq_true, and_true, and_false, or_false]
  omega

theorem not_switchAt_startSeq (i : Nat) : ¬ SwitchAt (startSeq d) i := by
  simp [startSeq, settle, switchAt_cons, switchAt_nil, isSwitch, isCfgOut, isCfgIn]

theorem not_switchAt_stopSeq (i : Nat) : ¬ SwitchAt (stopSeq c d) i := by
  simp [stopSeq, settle, switchAt_cons, switchAt_nil, isSwitch, isCfgOut, isCfgIn]

theorem not_switchAt_sendBit (b : Level) (i : Nat) : ¬ SwitchAt (sendBit c d b) i := by
  simp [sendBit, settle, switchAt_cons, switchAt_nil, isSwitch, isCfgOut, isCfgIn]

/-- A window releases DIO at its first action and takes it back at its last (R155). -/
theorem switchAt_ackSeq (i : Nat) : SwitchAt (ackSeq c d) i ↔ i = 0 ∨ i = 8 := by
  simp only [ackSeq, settle, switchAt_cons, switchAt_nil, isSwitch, isCfgOut, isCfgIn, Bool.or_self, Bool.or_true, Bool.or_false,
    Bool.false_eq_true, and_true, and_false, or_false, false_or]
  omega

theorem switchAt_sendByte (x : Byte) (i : Nat) : SwitchAt (sendByte c d x) i ↔ i = 48 ∨ i = 56 := by
  simp only [sendByte, switchAt_append, not_switchAt_sendBit, switchAt_ackSeq, sendBit_length, false_or]
  omega

/-- The eight mode switches of a segment write are those of its four windows (R203). -/
theorem mem_modeSwitches_of_switchAt {pos : BitVec 3} {bm : Byte} {bri : BitVec 3} {i : Nat}
    (h : SwitchAt (writeSeq c d pos bm bri) i) : i ∈ modeSwitches := by
  simp only [writeSeq, t1, t2, t3, switchAt_append, not_switchAt_startSeq, switchAt_sendByte, not_switchAt_stopSeq,
    List.length_append, startSeq_length, sendByte_length, stopSeq_length, false_or, and_false, or_false] at h
  simp only [modeSwitches, List.mem_cons, List.not_mem_nil, or_false]
  omega

end

/-- A fault of the sequencer left its opcode and the index of the action that failed (R203 to R205). -/
def FaultInfoOk (s : State) : Prop :=
  (s.faultCause = .gpioInitFail → s.faultInfo = 0x01#8 ++ 0x0000#16 ++ s.seqIdx ∧ (s.seqIdx = 0 ∨ s.seqIdx = 1)) ∧
  (s.faultCause = .gpioRuntimeFail → s.faultInfo = 0x03#8 ++ 0x0000#16 ++ s.seqIdx ∧ s.seqIdx.toNat ∈ modeSwitches)

namespace FaultInfoOk

theorem of_other_cause {s : State} (h1 : s.faultCause ≠ .gpioInitFail) (h2 : s.faultCause ≠ .gpioRuntimeFail) :
    FaultInfoOk s := ⟨fun h => absurd h h1, fun h => absurd h h2⟩

theorem of_noFault {s : State} (h : s.faultCause = .noFault) : FaultInfoOk s := of_other_cause (by simp [h]) (by simp [h])

/-- The answer to the action at SEQ_IDX faults only if that action is a mode switch. -/
theorem answer {a : Action} {u : State} (I : u.Inv) (hbusy : u.fsm = .busy) (ho : u.outstanding = some a) :
    FaultInfoOk (answer a u) := by
  by_cases hr : respond a u = .cfg .fail
  · obtain ⟨hcause, hinfo, -, hidx, -⟩ := answer_of_fail hr
    have hsw : SwitchAt (curSeq u) u.seqIdx.toNat := ⟨a, (I.outstanding_is a ho).2, isSwitch_of_fail hr⟩
    unfold FaultInfoOk
    rw [hcause, hinfo, hidx]
    cases hop : u.op with
    | init =>
      rw [curSeq, hop] at hsw
      have hi : u.seqIdx.toNat = 0 ∨ u.seqIdx.toNat = 1 := (switchAt_initSeq _ _ _).1 hsw
      refine ⟨fun _ => ⟨by rw [runInfo, hop]; rfl, ?_⟩, (fun h => nomatch h)⟩
      exact hi.imp BitVec.eq_of_toNat_eq BitVec.eq_of_toNat_eq
    | write =>
      rw [curSeq, hop] at hsw
      exact ⟨(fun h => nomatch h), fun _ => ⟨by rw [runInfo, hop]; rfl, mem_modeSwitches_of_switchAt _ _ hsw⟩⟩
  · obtain ⟨hcause, -⟩ := answer_of_ne_fail hr
    exact of_noFault (hcause.trans (I.noFault (by simp [hbusy])))

theorem of_effect {due : Option Event} {u t : State} (I : u.Inv) (F : FaultInfoOk u) (e : Effect due u t) : FaultInfoOk t := by
  cases e with
  | still => exact F
  | reset => exact of_noFault rfl
  | hang => exact F
  | pinWrite p w => cases w <;> exact F
  | refuse c w _ hc =>
    obtain ⟨-, hinit, hrun⟩ := causes_of_refuse hc
    exact of_other_cause hinit hrun
  | init c d hready => exact of_noFault (I.noFault (ne_fault_of_ready hready))
  | setBrightness => exact F
  | writeSegmentRaw p b hidle => exact of_noFault (I.noFault (by simp [hidle]))
  | answer a hbusy _ ho => exact answer I hbusy ho
  | issue => exact F

end FaultInfoOk

/-- Settles O55: only an answer writes a cause of the sequencer. -/
theorem stepKeepsFaultInfo : Obligations.StepKeepsFaultInfo := by
  refine ⟨FaultInfoOk.of_noFault rfl, fun s t I F h => ?_⟩
  obtain ⟨u, hu, e⟩ := step_effect h
  have Fu : FaultInfoOk u := by
    unfold FaultInfoOk
    rw [hu.faultCause, hu.faultInfo, hu.seqIdx]
    exact F
  exact Fu.of_effect (hu.inv I) e

end Sys2Proof.Machine
end

section
/-! PROOF. The family 10_state: the bits of a byte on the wire (R159), and the conditions that a segment write and INIT_SEQ make (R34,
R165, R166), part by part. -/

namespace Sys2Proof.Machine

/-! ### The bits of a byte -/

section
variable (c d : PinId)

/-- The shift register's bits are the byte's from bit 0 up (R36). -/
theorem shiftBits_eq_flatMap (n : Nat) (x : Byte) :
    shiftBits c d n x = (List.range n).flatMap fun i => sendBit c d (x.getLsbD i) := by
  induction n generalizing x with
  | zero => rfl
  | succ n ih =>
    simp [shiftBits, ih, List.range_succ_eq_map, List.flatMap_map, Nat.add_comm]

theorem sendByte_eq_flatMap (x : Byte) :
    sendByte c d x = ((List.range 8).flatMap fun i => sendBit c d (x.getLsbD i)) ++ ackSeq c d := rfl

/-- Offset 6k + r of a byte is action r of its bit k (R159). -/
theorem sendByte_getElem?_bit (x : Byte) {k r : Nat} (hk : k < 8) (hr : r < 6) :
    (sendByte c d x)[6 * k + r]? = (sendBit c d (x.getLsbD k))[r]? := by
  interval_cases k <;> interval_cases r <;> rfl

/-- Of the six actions of a bit the third alone sets DIO (R154). -/
theorem sendBit_set_dio {c d : PinId} (hcd : c ≠ d) {b v : Level} {r : Nat}
    (h : (sendBit c d b)[r]? = some (.set d v)) : r = 2 := by
  have hr : r < 6 := (List.getElem?_eq_some_iff.1 h).1
  interval_cases r <;> simp_all [sendBit, settle]

end

/-- Settles O16: an offset before the window is an action of one bit, and the shift register holds the byte's bits in turn. -/
theorem sendByteLsbFirst : Obligations.SendByteLsbFirst := by
  intro c d x
  refine ⟨fun i hi => sendByte_getElem?_bit c d x hi (by decide), fun hcd i v hi h => ?_, rfl, rfl, ?_⟩
  · rw [← Nat.div_add_mod i 6, sendByte_getElem?_bit c d x (by omega) (Nat.mod_lt i (by decide))] at h
    have := sendBit_set_dio hcd h
    exact ⟨i / 6, by omega, by omega⟩
  · rw [sendByteShift, shiftBits_eq_flatMap, sendByte_eq_flatMap]

/-! ### The conditions a sequence makes -/

/-- The condition that a change of DIO with CLK at 1 is: none if DIO stays (R34). -/
def dioChange (n : Nat) (before after : Level) : List (Nat × WireEdge) :=
  match before, after with
  | true, false => [(n, .start)]
  | false, true => [(n, .stop)]
  | true, true => []
  | false, false => []

@[simp] theorem mem_dioChange (n : Nat) (before after : Level) (p : Nat × WireEdge) :
    p ∈ dioChange n before after ↔
      (p = (n, .start) ∧ before = true ∧ after = false) ∨ (p = (n, .stop) ∧ before = false ∧ after = true) := by
  cases before <;> cases after <;> simp [dioChange]

/-- The conditions of an acknowledge window from index n on, after a bit of level b: at its CFG_IN, where DIO goes from the engine to the
outside world, and in its stretch from C1 to C0, where DIO is the outside world's (R165, R166). -/
def windowEdges (ext : Nat → Outside) (n : Nat) (b : Level) : List (Nat × WireEdge) :=
  dioChange n b (ext (n + 1)).dio ++ dioChange (n + 5) (ext (n + 5)).dio (ext (n + 6)).dio

@[simp] theorem edgesFrom_nil (ext : Nat → Outside) (c d : PinId) (n : Nat) (w : Wires) : edgesFrom ext c d n w [] = [] := rfl

/-- A window's conditions are at its CFG_IN and at its second settle delay, between C1 and C0. -/
theorem index_of_mem_windowEdges {ext : Nat → Outside} {n : Nat} {b : Level} {p : Nat × WireEdge} (h : p ∈ windowEdges ext n b) :
    p.1 = n ∨ p.1 = n + 5 := by
  simp only [windowEdges, List.mem_append, mem_dioChange] at h
  rcases h with (⟨rfl, -⟩ | ⟨rfl, -⟩) | ⟨rfl, -⟩ | ⟨rfl, -⟩ <;> simp

/-- The condition at an action is a change of DIO, if CLK is 1 before and after. -/
theorem edgesFrom_cons (ext : Nat → Outside) (c d : PinId) (n : Nat) (w : Wires) (a : Action) (l : List Action) :
    edgesFrom ext c d n w (a :: l) =
      (if clkLevel (ext n) w = true ∧ clkLevel (ext (n + 1)) (wireStep c d w a) = true then
        dioChange n (dioLevel (ext n) w) (dioLevel (ext (n + 1)) (wireStep c d w a)) else []) ++
      edgesFrom ext c d (n + 1) (wireStep c d w a) l := by
  simp only [edgesFrom, edgeBetween]
  cases dioLevel (ext n) w <;> cases dioLevel (ext (n + 1)) (wireStep c d w a) <;> simp [dioChange] <;> split_ifs <;> rfl

section
variable (ext : Nat → Outside) {c d : PinId} (hcd : c ≠ d) (n : Nat)
include hcd

/-- START from both lines at 1 is a start condition at its first action (R152). -/
theorem edgesFrom_startSeq : edgesFrom ext c d n idleHigh (startSeq d) = [(n, .start)] := by
  simp [startSeq, settle, edgesFrom_cons, edgesFrom_nil, wireStep, hcd.symm, idleHigh, clkLevel, dioLevel, latchOfLevel, dioChange]

/-- STOP from CLK at 0 is a stop condition at its fifth action (R153). -/
theorem edgesFrom_stopSeq (l : Latch) :
    edgesFrom ext c d n ⟨.out, .low, .out, l⟩ (stopSeq c d) = [(n + 4, .stop)] := by
  simp [stopSeq, settle, edgesFrom_cons, edgesFrom_nil, wireStep, hcd.symm, clkLevel, dioLevel, latchOfLevel, dioChange]

/-- A bit changes DIO with CLK at 0 only (R154). -/
theorem edgesFrom_sendBit (kl dl : Latch) (b : Level) :
    edgesFrom ext c d n ⟨.out, kl, .out, dl⟩ (sendBit c d b) = [] := by
  cases b <;>
  simp [sendBit, settle, edgesFrom_cons, edgesFrom_nil, wireStep, hcd.symm, clkLevel, dioLevel, latchOfLevel, dioChange]

theorem edgesFrom_ackSeq (b : Level) :
    edgesFrom ext c d n ⟨.out, .high, .out, latchOfLevel b⟩ (ackSeq c d) = windowEdges ext n b := by
  cases b <;>
  simp [ackSeq, settle, edgesFrom_cons, edgesFrom_nil, wireStep, hcd.symm, clkLevel, dioLevel, latchOfLevel, windowEdges]

/-- Of a byte only the window makes conditions, and the first of them turns on the byte's bit 7 (R165). -/
theorem edgesFrom_sendByte (kl dl : Latch) (x : Byte) :
    edgesFrom ext c d n ⟨.out, kl, .out, dl⟩ (sendByte c d x) = windowEdges ext (n + 48) (x.getLsbD 7) := by
  simp only [sendByte, edgesFrom_append, wiresAfter_sendBit hcd, edgesFrom_sendBit ext hcd, edgesFrom_ackSeq ext hcd,
    sendBit_length, List.nil_append]

end

theorem addrByte_bit_seven : ∀ pos : BitVec 3, (addrByte pos)[7] = true := by decide

theorem ctrlByte_bit_seven : ∀ bri : BitVec 3, (ctrlByte bri)[7] = true := by decide

/-- All conditions of a segment write: a start and a stop around each transaction, and those of the four windows (R163, R165). -/
theorem edgesFrom_writeSeq (ext : Nat → Outside) {c d : PinId} (hcd : c ≠ d) (pos : BitVec 3) (bm : Byte) (bri : BitVec 3) :
    edgesFrom ext c d 0 idleHigh (writeSeq c d pos bm bri) =
      [(0, .start)] ++ windowEdges ext 50 false ++ [(63, .stop), (65, .start)] ++ windowEdges ext 115 true ++
        windowEdges ext 172 (bm.getLsbD 7) ++ [(185, .stop), (187, .start)] ++ windowEdges ext 237 true ++ [(250, .stop)] := by
  have hstart : wiresAfter c d idleHigh (startSeq d) = ⟨.out, .high, .out, .low⟩ := wiresAfter_startSeq hcd _
  have hstop : ∀ l, wiresAfter c d ⟨.out, .low, .out, l⟩ (stopSeq c d) = idleHigh := fun l => wiresAfter_stopSeq hcd _
  simp [writeSeq, t1, t2, t3, edgesFrom_append, hstart, hstop, wiresAfter_sendByte hcd, edgesFrom_startSeq ext hcd,
    edgesFrom_sendByte ext hcd, edgesFrom_stopSeq ext hcd, addrByte_bit_seven, ctrlByte_bit_seven]

/-- A condition stands at the index of one of the actions. -/
theorem index_of_mem_edgesFrom {ext : Nat → Outside} {c d : PinId} {n : Nat} {w : Wires} {l : List Action} {p : Nat × WireEdge}
    (h : p ∈ edgesFrom ext c d n w l) : n ≤ p.1 ∧ p.1 < n + l.length := by
  induction l generalizing n w with
  | nil => simp at h
  | cons a l ih =>
    rw [edgesFrom_cons, List.mem_append] at h
    rw [List.length_cons]
    rcases h with h | h
    · have hp : p.1 = n := by
        split at h
        · rcases (mem_dioChange _ _ _ _).1 h with ⟨rfl, -⟩ | ⟨rfl, -⟩ <;> rfl
        · simp at h
      omega
    · have := ih h
      omega

/-- The conditions of INIT_SEQ from its D1 on: DIO goes from its latch to 1 with CLK at 1, and stays there (R151, R231). -/
theorem mem_edgesFrom_initSeq (ext : Nat → Outside) {c d : PinId} (hcd : c ≠ d) (w : Wires) {i : Nat} (hi : 4 ≤ i)
    (k : WireEdge) :
    (i, k) ∈ edgesFrom ext c d 0 w (initSeq c d) ↔ (i, k) ∈ dioChange 4 (lineLevel .out w.dioLatch (ext 4).dio) true := by
  have hsplit : initSeq c d = [.cfgOut c, .cfgOut d, .set c true, settle] ++ [.set d true, settle] := rfl
  have hfirst : (i, k) ∉ edgesFrom ext c d 0 w [.cfgOut c, .cfgOut d, .set c true, settle] := by
    intro h
    have := (index_of_mem_edgesFrom h).2
    simp only [List.length_cons, List.length_nil] at this
    omega
  rw [hsplit, edgesFrom_append, List.mem_append, or_iff_right hfirst]
  simp [edgesFrom_cons, wireStep, settle, hcd.symm, clkLevel, dioLevel, latchOfLevel, dioChange]

/-- Settles O18: the conditions of a segment write are those of `edgesFrom_writeSeq`, of which only the windows' are not fixed. -/
theorem drivenConditions : Obligations.DrivenConditions := by
  intro c d ext hcd
  refine ⟨fun pos bm bri => ?_, fun w => ⟨?_, ?_, fun k => ?_⟩⟩
  · dsimp only
    rw [edgesFrom_writeSeq ext hcd]
    constructor
    · simp
    · intro p hp
      simp only [List.mem_append, List.mem_cons, List.not_mem_nil, or_false] at hp
      rcases hp with ((((((rfl | h) | rfl | rfl) | h) | h) | rfl | rfl) | h) | rfl
      case inl.inl.inl.inl.inl.inl.inr | inl.inl.inl.inl.inr | inl.inl.inl.inr | inl.inr =>
        rcases index_of_mem_windowEdges h with hp | hp <;> simp [hp]
      all_goals simp
  · rw [mem_edgesFrom_initSeq ext hcd w (by decide)]
    simp
  · rw [mem_edgesFrom_initSeq ext hcd w (by decide)]
    simp
  · rw [mem_edgesFrom_initSeq ext hcd w (by decide)]
    simp

/-- Settles O20: the windows' conditions in `edgesFrom_writeSeq` are those of `mem_dioChange`; held levels make them fixed. -/
theorem inputSwitchHazard : Obligations.InputSwitchHazard := by
  intro c d pos bm bri hcd
  refine ⟨fun ext start top hst => ?_, ?_, ?_⟩
  · dsimp only
    rw [edgesFrom_writeSeq ext hcd]
    simp only [List.mem_cons, Prod.mk.injEq, List.not_mem_nil, or_false] at hst
    rcases hst with ⟨rfl, rfl⟩ | ⟨rfl, rfl⟩ | ⟨rfl, rfl⟩ | ⟨rfl, rfl⟩ <;> simp [windowEdges]
  · rw [edgesFrom_writeSeq _ hcd]
    cases bm.getLsbD 7 <;> rfl
  · rw [edgesFrom_writeSeq _ hcd]
    cases bm.getLsbD 7 <;> rfl

end Sys2Proof.Machine
end

section
/-! PROOF. The family 10_state: reset, the host's registers and turns (R27 to R32, R61, R62, R100, R120, R230). -/

namespace Sys2Proof.Machine

/-! ### Reset -/

/-- Settles O39, by evaluation. -/
theorem resetValues : Obligations.ResetValues :=
  ⟨rfl, rfl, rfl, rfl, rfl, rfl, rfl, rfl, rfl, rfl, rfl, rfl⟩

/-- Settles O52: at reset there is no sequence, no pin and no cause, and the wires' invariant asks for nothing. -/
theorem resetMeetsInvariants : Obligations.ResetMeetsInvariants :=
  ⟨{ dirs_wf := ⟨.nil, (fun _ h => nomatch h)⟩
     latches_wf := ⟨.nil, (fun _ h => nomatch h)⟩
     position_lt := by decide
     idx_rest := fun _ => rfl
     idx_busy := fun h => nomatch h
     outstanding_is := fun _ h => nomatch h
     hung_is := fun h => nomatch h
     cause_iff := by decide
     info_zero := fun _ => rfl
     pins_differ := by decide
     init_written := by decide },
   State.WireInv.of_not_running (.inl rfl)⟩

/-- Settles O38: the reset's state is `engineReset` of one that differs only in what the host asks. -/
theorem resetEvent : Obligations.ResetEvent := by
  refine ⟨fun s hdue => ?_, fun s r hdue => step_event hdue⟩
  obtain ⟨u, hu, ht⟩ := onEvent_reset (popEvent s)
  refine ⟨_, (step_event hdue).trans (congrArg _ ht), ?_⟩
  have hengine : SameEngine State.reset (engineReset u) := ⟨rfl, rfl, rfl, rfl, rfl, rfl, rfl, rfl, rfl, rfl, rfl, rfl⟩
  rcases hu with rfl | ⟨op, rfl⟩ <;> exact ⟨hengine, rfl, rfl, rfl, rfl, rfl, ⟨rfl, rfl⟩, rfl, rfl⟩

/-! ### The words the host reads -/

/-- The fields of STATUS (R28), but for STATE, which `statusWord_state` has. -/
theorem statusWord_fields (s : State) :
    (statusWord s).extractLsb' 4 3 = s.brightness ∧ (statusWord s).extractLsb' 8 4 = s.ackLog ∧
      (statusWord s).extractLsb' 12 4 = causeCode s.faultCause ∧ (statusWord s).extractLsb' 16 8 = s.seqIdx ∧
      (statusWord s).extractLsb' 24 8 = 0#8 := by
  refine ⟨?_, ?_, ?_, ?_, ?_⟩ <;>
  · apply BitVec.eq_of_getLsbD_eq
    intro i hi
    simp only [statusWord, BitVec.getLsbD_extractLsb', BitVec.getLsbD_append, hi, decide_true, Bool.true_and]
    simp (disch := omega) only [if_neg, if_pos]
    congr 1
    omega

/-- The single bits of STATUS: OP, and the two reserved ones below bit 24. -/
theorem statusWord_bits (s : State) :
    (statusWord s).getLsbD 2 = (opBit s.op).getLsbD 0 ∧ (statusWord s).getLsbD 3 = false ∧ (statusWord s).getLsbD 7 = false := by
  simp (disch := omega) only [statusWord, BitVec.getLsbD_append, if_neg, if_pos]
  simp

/-- Settles O42, from the fields of the word and the codes of R23 and R200. -/
theorem statusLayout : Obligations.StatusLayout := by
  intro s
  obtain ⟨hbri, hack, hcause, hidx, hres⟩ := statusWord_fields s
  obtain ⟨hop, h3, h7⟩ := statusWord_bits s
  refine ⟨?_, ?_, h3, hbri, h7, hack, ?_, hidx, hres, by decide⟩
  · rw [statusWord_state]
    cases s.fsm <;> rfl
  · rw [hop]
    cases s.op <;> rfl
  · rw [hcause]
    cases s.faultCause <;> rfl

/-- The fields of CONFIG (R30). -/
theorem configWord_fields (s : State) :
    (configWord s).extractLsb' 0 8 = s.dioPin ∧ (configWord s).extractLsb' 8 8 = s.clkPin ∧
      (configWord s).extractLsb' 16 3 = BitVec.ofNat 3 hw.nDigits ∧ (configWord s).extractLsb' 19 13 = 0#13 := by
  refine ⟨?_, ?_, ?_, ?_⟩ <;>
  · apply BitVec.eq_of_getLsbD_eq
    intro i hi
    simp only [configWord, BitVec.getLsbD_extractLsb', BitVec.getLsbD_append, hi, decide_true, Bool.true_and]
    simp (disch := omega) only [if_neg, if_pos]
    congr 1
    omega

/-- Settles O43, from the fields of the word. -/
theorem configLayout : Obligations.ConfigLayout := by
  intro s
  obtain ⟨hdio, hclk, hdigits, hres⟩ := configWord_fields s
  exact ⟨hdio, hclk, by rw [hdigits]; rfl, hres, by decide⟩

/-! ### The host's turn -/

/-- A host operation at the head of the queue that BUSY does not hold is what the step does. -/
theorem step_of_head {s : State} {op : HostOp} {rest : List HostReq} (he : dueEvent s = none) (h : s.host = ⟨0, op⟩ :: rest)
    (hn : ¬(isCmdWrite op = true ∧ s.fsm = .busy)) :
    step s = hostMove op { s with host := rest, initWritten := s.initWritten || isInitWrite op } := by
  rw [step_host he (dueHost_of_head h hn), noteOp, popHost, h]
  rfl

/-- Settles O44: none of these operations is a CMD write, so BUSY holds none of them. -/
theorem hostRegisterAccess : Obligations.HostRegisterAccess := by
  intro s rest he
  have hread : ∀ reg, s.host = ⟨0, .read reg⟩ :: rest → step s = .next { s with host := rest, rdData := readReg reg s } := by
    intro reg h
    rw [step_of_head he h (by simp [isCmdWrite])]
    simp only [hostMove, isInitWrite, Bool.or_false]
    rfl
  refine ⟨hread 0, hread 1, hread 2, hread 3, fun reg w hreg h => ?_⟩
  have hcmd : isCmdWrite (.write reg w) = false := decide_eq_false hreg
  have hinit : isInitWrite (.write reg w) = false := by rw [isInitWrite, decide_eq_false hreg, Bool.false_and]
  rw [step_of_head he h (by simp [hcmd]), hostMove, writeReg, if_neg hreg, hinit, Bool.or_false]

/-- Settles O22: outside BUSY the write has its turn, and BUSY does not hold the ENCODE port's input. -/
theorem stepRunsHostInstruction : Obligations.StepRunsHostInstruction := by
  intro s rest i he
  have hwrite : ∀ w, s.host = ⟨0, .write 0 w⟩ :: rest → s.fsm ≠ .busy →
      step s = writeReg 0 w { s with host := rest, initWritten := s.initWritten || legalInit w } := by
    intro w h hb
    rw [step_of_head he h (by simp [hb])]
    simp [hostMove, isInitWrite]
  refine ⟨hwrite, fun w h hb hd => ?_, fun dot idx h hd => ?_⟩
  · rw [hwrite w h hb]
    simp [writeReg, writeCmd, hd]
  · rw [step_of_head he h (by simp [isCmdWrite])]
    obtain rfl : decodeEnc (BitVec.ofBool dot ++ idx) = i := by simpa [decode] using hd
    simp [hostMove, isInitWrite]

end Sys2Proof.Machine
end

section
/-! PROOF. The family 10_state: the sequencer's two moves (R66 to R71, R121, R122) and the wire bytes (R157, R159). -/

namespace Sys2Proof.Machine

/-! ### The issue and the answer -/

/-- Settles O24: it is `step_issue`, with the move counted in the queues. -/
theorem sequencerIssues : Obligations.SequencerIssues := by
  intro s a ⟨he, hh, hhung⟩ hb ho ha
  exact step_issue he hh hb hhung ho ha

theorem runCause_eq (op : Op) : runCause op = if op = .init then .gpioInitFail else .gpioRuntimeFail := by
  cases op <;> rfl

theorem opCode_eq (op : Op) : opCode op = if op = .init then 0x01#8 else 0x03#8 := by
  cases op <;> rfl

theorem samePins_of_lists {s t : State} (hd : t.dirs = s.dirs) (hl : t.latches = s.latches) : SamePins s t :=
  fun _ => ⟨dirOf_congr hd, latchOf_congr hl⟩

/-- Settles O25: a step answers the action, and the answer is a failed configuration or goes on. -/
theorem sequencerAnswers : Obligations.SequencerAnswers := by
  intro s a ⟨he, hh, hhung⟩ hb ho
  refine ⟨_, step_answer he hh hb hhung ho, by simp, by simp, by simp, by simp, by simp, by simp, by simp, by simp,
    ⟨by simp, by simp⟩, by simp, ?_⟩
  have hfail := respond_eq_fail_iff a (elapse s)
  split
  case isTrue h =>
    obtain ⟨hcause, hinfo, hfsm, hidx, hack, hdirs, hlatches⟩ := answer_of_fail (hfail.2 h)
    refine ⟨hfsm, hidx, hack, samePins_of_lists hdirs hlatches, ?_, ?_⟩
    · rw [hcause, runCause_eq, elapse_op]
    · rw [hinfo, runInfo, opCode_eq, elapse_op, elapse_seqIdx]
  case isFalse h =>
    obtain ⟨hcause, hinfo, hfsm, hidx, hack⟩ := answer_elapse_of_ne_fail (fun hr => h (hfail.1 hr))
    refine ⟨hcause, hinfo, ?_, ?_⟩
    · rw [hack]
      cases a <;> rfl
    · rw [hfsm, hidx]
      split
      · exact ⟨rfl, rfl⟩
      · exact ⟨hb, rfl⟩

/-! ### What an answered action does to the pins -/

@[simp] theorem dirOf_answer (p : PinId) (a : Action) (s : State) : dirOf p (answer a s) = dirOf p (applied a s) :=
  dirOf_congr (answer_dirs a s)

@[simp] theorem latchOf_answer (p : PinId) (a : Action) (s : State) : latchOf p (answer a s) = latchOf p (applied a s) :=
  latchOf_congr (answer_latches a s)

/-- A pin configured `ok` takes the direction, and no other pin does. -/
theorem dirOf_configured_of_ok {s : State} (h : cfgAnswer s = .ok) (p q : PinId) (d : Dir) :
    dirOf q (configured p d s) = if p = q then d else dirOf q s := by
  rw [configured_of_ok h, dirOf_setDir]
  rfl

/-- A configuration, whatever its answer, leaves every latch. -/
theorem latchOf_configured (p q : PinId) (d : Dir) (s : State) : latchOf q (configured p d s) = latchOf q s :=
  latchOf_congr (configured_latches p d s)

/-- A failed configuration leaves every pin (R67, R68). -/
theorem samePins_answer_of_fail {a : Action} {s : State} (h : respond a s = .cfg .fail) : SamePins s (answer a s) := by
  obtain ⟨-, -, -, -, -, hdirs, hlatches⟩ := answer_of_fail h
  exact samePins_of_lists hdirs hlatches

/-- Settles O26, action by action. -/
theorem pinEffects : Obligations.PinEffects := by
  intro s p q v n
  refine ⟨fun hok => ⟨?_, ?_, ?_, ?_, fun hqp => ⟨?_, ?_⟩⟩, fun hfail => ⟨?_, ?_⟩, ?_, ?_, fun hqp => ?_, ?_, ?_⟩
  · simp [applied, dirOf_configured_of_ok hok]
  · simp [applied, dirOf_configured_of_ok hok]
  · simp [applied, latchOf_configured]
  · simp [applied, latchOf_configured]
  · simp [applied, dirOf_configured_of_ok hok, hqp.symm]
  · simp [applied, dirOf_configured_of_ok hok, hqp.symm]
  · exact samePins_answer_of_fail (by simp [respond, hfail])
  · exact samePins_answer_of_fail (by simp [respond, hfail])
  · simp [applied, latchOfLevel]
  · simp [applied]
  · simp [applied, latchOf_setLatch_ne hqp]
  · exact samePins_of_lists (by simp [applied_dirs]) (by simp [applied_latches])
  · exact samePins_of_lists (by simp [applied_dirs]) (by simp [applied_latches])

/-! ### The wire bytes -/

/-- A move of a wire byte, whatever its operand, is an answer or an issue in BUSY (log entry 10). -/
theorem exec_byteInstrOf_cases {role : ByteRole} {pos : BitVec 3} {bm : Byte} {bri : BitVec 3} {s t : State}
    (h : exec (byteInstrOf role pos bm bri) s = .next t) :
    (∃ a, s.outstanding = some a ∧ t = answer a s) ∨ ∃ a, t = issue a s := by
  rw [exec_byteInstrOf, byteMove] at h
  split at h
  case isFalse => cases h
  case isTrue =>
    rcases moveWith_cases ((sendByte s.clkPin s.dioPin (wireByte role pos bm bri))[s.seqIdx.toNat - byteStart role]?) s with
      ⟨a, ho, hm⟩ | ⟨a, -, -, hm⟩ | ⟨-, -, hm⟩ <;> rw [hm] at h <;> cases h
    · exact .inl ⟨a, ho, rfl⟩
    · exact .inr ⟨a, rfl⟩

/-- The four wire bytes are the instructions of the four roles. -/
theorem exists_byteInstrOf {i : Instr}
    (h : i = .wireDataCmd ∨ (∃ pos, i = .wireAddrCmd pos) ∨ (∃ bm, i = .wireData bm) ∨ ∃ bri, i = .wireDispCtrl bri) :
    ∃ role pos bm bri, i = byteInstrOf role pos bm bri := by
  rcases h with rfl | ⟨pos, rfl⟩ | ⟨bm, rfl⟩ | ⟨bri, rfl⟩
  · exact ⟨.dataCmd, 0, 0, 0, rfl⟩
  · exact ⟨.addrCmd, pos, 0, 0, rfl⟩
  · exact ⟨.data, 0, bm, 0, rfl⟩
  · exact ⟨.dispCtrl, 0, 0, bri, rfl⟩

/-- Settles O31: a move is an issue, which touches no register, or an answer, whose action is the running sequence's. -/
theorem wireByteFrame : Obligations.WireByteFrame := by
  intro s t i hi h
  obtain ⟨role, pos, bm, bri, rfl⟩ := exists_byteInstrOf hi
  rcases exec_byteInstrOf_cases h with ⟨a, ho, rfl⟩ | ⟨a, rfl⟩
  · refine ⟨by simp, by simp, by simp, by simp, by simp, by simp, ⟨by simp, by simp⟩, by simp, by simp, by simp, by simp,
      fun I p hc hd => ?_⟩
    rw [dirOf_answer, latchOf_answer]
    exact applied_other_pin (I.outstanding_is a ho).2 hc hd
  · exact ⟨rfl, rfl, rfl, rfl, rfl, rfl, ⟨rfl, rfl⟩, rfl, rfl, rfl, rfl, fun _ _ _ _ => ⟨rfl, rfl⟩⟩

section
variable {role : ByteRole} {k : Nat} {s : State} (h : AtByte (byteStart role) k s)
include h

/-- In its place with an action in flight a wire byte's move is the answer (R121). -/
theorem exec_byteInstrOf_answer {a : Action} (ho : s.outstanding = some a) (pos : BitVec 3) (bm : Byte) (bri : BitVec 3) :
    exec (byteInstrOf role pos bm bri) s = .next (answer a s) := by
  obtain ⟨hbusy, hop, hk, hidx⟩ := h
  have hrole : roleAt s.seqIdx.toNat = some role := (roleAt_eq_some_iff _ _).2 (by omega)
  rw [exec_byteInstrOf, byteMove, if_pos ⟨hbusy, hop, hrole⟩]
  simp [moveWith, ho]

/-- Inside a byte no action is the segment write's last, so what is answered goes on to the next index (R121). -/
theorem finish_of_atByte {t : State} (hidx : t.seqIdx = s.seqIdx) (hseq : curSeq t = curSeq s) : finish t = advance t := by
  obtain ⟨-, hop, hk, hk'⟩ := h
  have hstart : byteStart role ≤ 189 := by cases role <;> decide
  rw [finish, if_neg]
  rw [hidx, hseq, curSeq_length, hop]
  dsimp only
  omega

/-- So an answer that goes on leaves the byte at its next action. -/
theorem exec_byteInstrOf_advance {a : Action} {t : State} (ho : s.outstanding = some a) (ha : answer a s = finish t)
    (hidx : t.seqIdx = s.seqIdx) (hseq : curSeq t = curSeq s) (pos : BitVec 3) (bm : Byte) (bri : BitVec 3) :
    exec (byteInstrOf role pos bm bri) s = .next (advance t) := by
  rw [exec_byteInstrOf_answer h ho, ha, finish_of_atByte h hidx hseq]

end

/-! ### The answer to each kind of action, whole -/

section
variable (p : PinId) (s : State)

theorem answer_delay (n : Nat) : answer (.delay n) s = finish (received s) := rfl

theorem answer_set (v : Level) : answer (.set p v) s = finish (received (setLatch p (latchOfLevel v) s)) := rfl

variable {p s}

/-- A line that the pin drives is read as the pin drives it, and nothing is drawn from outside (R34; log entry 18). -/
theorem answer_get_driven {b : Level} (hb : drivenLevel p s = some b) :
    answer (.get p) s = finish (logAck (!b) (received s)) := by
  simp [answer, respond, applied, onResponse, lineOf_eq, hb]

theorem answer_get_undriven (hb : drivenLevel p s = none) :
    answer (.get p) s = finish (logAck (!outsideBit s) (received (consumeLevel s))) := by
  simp [answer, respond, applied, onResponse, lineOf_eq, hb]

theorem answer_cfgOut_ok (hok : cfgAnswer s = .ok) :
    answer (.cfgOut p) s = finish (received (setDir p .out (consumeCfg s))) := by
  simp [answer, respond, applied, onResponse, configured, hok]

theorem answer_cfgIn_ok (hok : cfgAnswer s = .ok) :
    answer (.cfgIn p) s = finish (received (setDir p .input (consumeCfg s))) := by
  simp [answer, respond, applied, onResponse, configured, hok]

theorem answer_cfg_fail {a : Action} (ha : a = .cfgOut p ∨ a = .cfgIn p) (hfail : cfgAnswer s = .fail) :
    answer a s = raiseFault (runCause s.op) (runInfo s) (received (consumeCfg s)) := by
  rcases ha with rfl | rfl <;> simp [answer, respond, applied, onResponse, configured, hfail, runInfo]

end

/-- Each wire byte in its place takes every answer as the sequencer does, and then stands at the byte's next action. -/
theorem byteAnswers (role : ByteRole) (pos : BitVec 3) (bm : Byte) (bri : BitVec 3) :
    ByteAnswers (byteInstrOf role pos bm bri) (byteStart role) := by
  intro s k hat
  refine ⟨fun n ho => ?_, fun p v ho => ?_, fun p b ho hb => ?_, fun p ho hb => ?_, fun p ho hok => ?_, fun p ho hok => ?_,
    fun p ho hfail => ?_⟩
  · rw [exec_byteInstrOf_advance hat ho (answer_delay s n) rfl rfl]
    rfl
  · rw [exec_byteInstrOf_advance hat ho (answer_set p s v) rfl rfl]
    rfl
  · rw [exec_byteInstrOf_advance hat ho (answer_get_driven hb) rfl rfl]
    rfl
  · rw [exec_byteInstrOf_advance hat ho (answer_get_undriven hb) rfl rfl]
    rfl
  · rw [exec_byteInstrOf_advance hat ho (answer_cfgOut_ok hok) rfl rfl]
    rfl
  · rw [exec_byteInstrOf_advance hat ho (answer_cfgIn_ok hok) rfl rfl]
    rfl
  · obtain ⟨a, ha, ho⟩ : ∃ a, (a = .cfgOut p ∨ a = .cfgIn p) ∧ s.outstanding = some a :=
      ho.elim (fun ho => ⟨_, .inl rfl, ho⟩) (fun ho => ⟨_, .inr rfl, ho⟩)
    rw [exec_byteInstrOf_answer hat ho, answer_cfg_fail ha hfail]
    obtain ⟨-, hop, -⟩ := hat
    rw [runInfo, hop]
    rfl

/-- Settles O28: the four bytes are the four roles of `byteAnswers`. -/
theorem wireBytesAnswer : Obligations.WireBytesAnswer :=
  ⟨byteAnswers .dataCmd 0 0 0, fun pos => byteAnswers .addrCmd pos 0 0, fun bm => byteAnswers .data 0 bm 0,
    fun bri => byteAnswers .dispCtrl 0 0 bri⟩

/-- ACK_LOG with bit k written has it there and every other bit as before (R157). -/
theorem setAckBit_getLsbD : ∀ (log : BitVec 4) (v : Bool), ∀ k < 4,
    (setAckBit log k v).getLsbD k = v ∧ ∀ j < 4, j ≠ k → (setAckBit log k v).getLsbD j = log.getLsbD j := by decide

/-- Settles O32: the four indices are those of `AckByte`, and the answer to a GET writes the inverse of its level there. -/
theorem ackSampler : Obligations.AckSampler := by
  intro s t b k ⟨he, hh, hhung⟩ hb hop ho hk hlevel hstep
  obtain rfl : answer (.get s.dioPin) (elapse s) = t := by
    simpa [step_answer he hh hb hhung ho] using hstep
  obtain ⟨hbyte, hk⟩ : ackByte s.seqIdx = some k ∧ k < 4 := by
    rcases hk with ⟨rfl, h⟩ | ⟨rfl, h⟩ | ⟨rfl, h⟩ | ⟨rfl, h⟩ <;> rw [h] <;> decide
  obtain ⟨-, -, -, -, hack⟩ := answer_elapse_of_ne_fail (a := .get s.dioPin) (s := s) (by simp [respond])
  have hlog : (answer (.get s.dioPin) (elapse s)).ackLog = setAckBit s.ackLog k (!b) := by
    have hsample : (answer (.get s.dioPin) (elapse s)).ackLog =
        ackAfter s.seqIdx (!(drivenLevel s.dioPin s).getD (outsideBit s)) s.ackLog := hack
    rw [hsample, hlevel, ackAfter, hbyte]
  rw [hlog]
  exact setAckBit_getLsbD _ _ k hk

end Sys2Proof.Machine
end

section
/-! PROOF. The family 20_memory: the issue of a wire byte (R66, R159), the order of the trace (R66, R77) and a hang (R72). -/

namespace Sys2Proof.Machine

/-! ### The issue of a wire byte -/

/-- In its place with nothing in flight a wire byte's move is the issue of its byte's next action. -/
theorem byteIssues (role : ByteRole) (pos : BitVec 3) (bm : Byte) (bri : BitVec 3) :
    ByteIssues (byteInstrOf role pos bm bri) (byteStart role) (wireByte role pos bm bri) := by
  intro s k ⟨hbusy, hop, hk, hidx⟩ ho
  have hrole : roleAt s.seqIdx.toNat = some role := (roleAt_eq_some_iff _ _).2 (by omega)
  have ha := List.getElem?_eq_getElem (l := sendByte s.clkPin s.dioPin (wireByte role pos bm bri)) (i := k) (by simpa using hk)
  refine ⟨_, ha, ?_⟩
  rw [exec_byteInstrOf, byteMove, if_pos ⟨hbusy, hop, hrole⟩, hidx, Nat.add_sub_cancel_left, ha, moveWith, ho]
  rfl

/-- Settles O27: the four bytes are the four roles of `byteIssues`. -/
theorem wireBytesIssue : Obligations.WireBytesIssue :=
  ⟨byteIssues .dataCmd 0 0 0, fun pos => byteIssues .addrCmd pos 0 0, fun bm => byteIssues .data 0 bm 0,
    fun bri => byteIssues .dispCtrl 0 0 bri⟩

/-! ### What events and the host leave of the engine -/

/-- No event touches the trace; a reset keeps it (R230). -/
@[simp] theorem onEvent_trace (ev : Event) (s : State) : (onEvent ev s).trace = s.trace := by
  by_cases hev : ev = .reset
  · obtain ⟨u, rfl | ⟨op, rfl⟩, ht⟩ := onEvent_reset s <;> simp [hev, ht]
  · rcases onEvent_of_ne_reset hev s with ht | ⟨-, -, ht⟩ | ⟨p, ⟨d, -, ht⟩ | ⟨l, -, ht⟩⟩ <;> simp [ht]

/-- Only a reset abandons an outstanding action (R230). -/
theorem onEvent_outstanding (ev : Event) (s : State) :
    (onEvent ev s).outstanding = if ev = .reset then none else s.outstanding := by
  split
  case isTrue hev =>
    obtain ⟨u, -, ht⟩ := onEvent_reset s
    simp [hev, ht]
  case isFalse hev =>
    rcases onEvent_of_ne_reset hev s with ht | ⟨-, -, ht⟩ | ⟨p, ⟨d, -, ht⟩ | ⟨l, -, ht⟩⟩ <;> simp [ht]

/-- An event that is no reset leaves every engine register and the action in flight (R230, R236), and writes no INIT. -/
theorem onEvent_keeps {ev : Event} (hev : ev ≠ .reset) (s : State) :
    SameEngine s (onEvent ev s) ∧ (onEvent ev s).initWritten = s.initWritten := by
  rcases onEvent_of_ne_reset hev s with ht | ⟨-, -, ht⟩ | ⟨p, ⟨d, -, ht⟩ | ⟨l, -, ht⟩⟩ <;> simp [ht, SameEngine]

/-- A hang outlasts every event that is no reset, and an answer that never comes to the action in flight begins one (R72). -/
theorem hung_onEvent {ev : Event} (hev : ev ≠ .reset) {s : State} (h : s.hung = true ∨ ev = .noAnswer ∧ s.outstanding ≠ none) :
    (onEvent ev s).hung = true := by
  rcases h with h | ⟨rfl, ho⟩
  · rcases onEvent_of_ne_reset hev s with ht | ⟨-, -, ht⟩ | ⟨p, ⟨d, -, ht⟩ | ⟨l, -, ht⟩⟩ <;> simp [ht, h]
  · simp [onEvent, Option.isSome_iff_ne_none.2 ho]

/-- No host operation issues, answers or abandons an action, or ends a hang; what it writes of INIT has been noted before it. -/
theorem hostMove_keeps {op : HostOp} {s t : State} (h : hostMove op s = .next t) :
    t.trace = s.trace ∧ t.outstanding = s.outstanding ∧ t.hung = s.hung ∧ t.initWritten = s.initWritten := by
  obtain ⟨t', ht', hc⟩ := hostMove_cases op s
  obtain rfl : t' = t := by simpa [ht'] using h
  rcases hc with rfl | ⟨reg, rfl⟩ | ⟨dot, idx, rfl⟩ | rfl | ⟨-, ⟨c, w, -, rfl⟩ | ⟨c, d, -, -, rfl⟩ | ⟨-, l, rfl⟩ | ⟨-, p, b, -, rfl⟩⟩
  case inr.inr.inr.inl => rcases pollOnce_cases s with hp | hp <;> simp [hp]
  all_goals simp

/-- In BUSY no host operation changes an engine register (R120, R127). -/
theorem sameEngine_hostMove {op : HostOp} {s t : State} (hb : s.fsm = .busy) (h : hostMove op s = .next t) : SameEngine s t := by
  obtain ⟨t', ht', hc⟩ := hostMove_cases op s
  obtain rfl : t' = t := by simpa [ht'] using h
  rcases hc with rfl | ⟨reg, rfl⟩ | ⟨dot, idx, rfl⟩ | rfl | ⟨hready, -⟩
  case inr.inr.inr.inl => rcases pollOnce_cases s with hp | hp <;> simp [hp, SameEngine]
  case inr.inr.inr.inr => exact absurd hb (ne_busy_of_ready hready)
  all_goals simp [SameEngine]

/-! ### The trace and the hang -/

/-- Settles O47: only the issue adds to the trace, and it adds the action at SEQ_IDX. -/
theorem traceGrowsInOrder : Obligations.TraceGrowsInOrder := by
  intro s t h
  rcases step_cases h with ⟨ev, -, rfl⟩ | ⟨-, op, -, hm⟩ | ⟨-, -, -, rfl⟩ | ⟨-, -, -, -, a, -, rfl⟩ |
    ⟨-, -, hb, -, ho, a, ha, rfl⟩
  · refine .inl ⟨by simp, ?_⟩
    rw [onEvent_outstanding]
    split
    · exact .inr rfl
    · exact .inl rfl
  · obtain ⟨htrace, hout, -, -⟩ := hostMove_keeps hm
    exact .inl ⟨htrace, .inl hout⟩
  · exact .inl ⟨rfl, .inl rfl⟩
  · exact .inl ⟨by simp, .inr (by simp)⟩
  · exact .inr ⟨hb, ho, a, ha, rfl, rfl⟩

/-- Settles O41: the engine and its collaborators do not move in a hang, and no other agent but a reset touches the engine. -/
theorem unansweredActionHangs : Obligations.UnansweredActionHangs := by
  intro s t hb ho hhang hreset h
  rcases step_cases h with ⟨ev, he, rfl⟩ | ⟨he, op, -, hm⟩ | ⟨he, -, -, rfl⟩ | ⟨he, -, -, hh, -⟩ | ⟨-, -, -, -, hnone, -⟩
  · have hev : ev ≠ .reset := by rintro rfl; exact hreset he
    have hcause : s.hung = true ∨ ev = .noAnswer ∧ s.outstanding ≠ none := by simpa [he, ho] using hhang
    exact ⟨hung_onEvent hev hcause, (onEvent_keeps hev (popEvent s)).1, onEvent_trace ev (popEvent s)⟩
  · obtain ⟨htrace, -, hhung, -⟩ := hostMove_keeps hm
    have hs : s.hung = true := by simpa [he] using hhang
    exact ⟨hhung.trans hs, sameEngine_hostMove (s := noteOp op (popHost s)) hb hm, htrace⟩
  · have hs : s.hung = true := by simpa [he] using hhang
    exact ⟨hs, by simp [SameEngine], rfl⟩
  · simp [he, hh] at hhang
  · exact absurd hnone ho

end Sys2Proof.Machine
end

section
/-! PROOF. The family 20_memory: a run ends (R72, R129), and what the host's writes of a legal INIT leave behind (R129). -/

namespace Sys2Proof.Machine

/-! ### A run in which nothing but the engine and its collaborators moves -/

/-- How many moves the running sequence still takes when every action is answered: an issue and an answer for each action from SEQ_IDX
on, less the issue of the one in flight (R121). -/
def movesLeft (s : State) : Nat :=
  if s.fsm = .busy then 2 * ((curSeq s).length - s.seqIdx.toNat) - (if s.outstanding = none then 0 else 1) else 0

theorem movesLeft_of_ne_busy {s : State} (h : s.fsm ≠ .busy) : movesLeft s = 0 := if_neg h

theorem movesLeft_of_busy {s : State} (h : s.fsm = .busy) :
    movesLeft s = 2 * ((curSeq s).length - s.seqIdx.toNat) - if s.outstanding = none then 0 else 1 := if_pos h

/-- No sequence is longer than the 252 actions of a segment write (R163). -/
theorem movesLeft_le (s : State) : movesLeft s ≤ 504 := by
  have hlen : (curSeq s).length ≤ 252 := by rw [curSeq_length]; cases s.op <;> simp
  unfold movesLeft
  split <;> omega

/-- In BUSY there is a move left: the index is inside the sequence (R24). -/
theorem State.Inv.ne_busy_of_movesLeft {s : State} (I : s.Inv) (h : movesLeft s = 0) : s.fsm ≠ .busy := by
  intro hb
  have hlt := I.idx_busy hb
  rw [movesLeft_of_busy hb] at h
  split at h <;> omega

theorem movesLeft_issue (a : Action) {s : State} (ho : s.outstanding = none) : movesLeft (issue a s) = movesLeft s - 1 := by
  by_cases hb : s.fsm = .busy <;> simp [movesLeft, hb, ho]

/-- An answer after which the engine is in BUSY has gone on to the next index (R121). -/
theorem answer_seqIdx_of_busy {a : Action} {s : State} (h : (answer a s).fsm = .busy) : (answer a s).seqIdx = s.seqIdx + 1 := by
  by_cases hr : respond a s = .cfg .fail
  · obtain ⟨-, -, hfsm, -⟩ := answer_of_fail hr
    simp [hfsm] at h
  · obtain ⟨-, -, hfsm, hidx, -⟩ := answer_of_ne_fail hr
    split at hidx
    case isTrue hlast => simp [hfsm, hlast] at h
    case isFalse => exact hidx

/-- An answer in BUSY leads to FAULT, to IDLE or on in BUSY (R121, R122). -/
theorem answer_ne_uninit {a : Action} {s : State} (hb : s.fsm = .busy) : (answer a s).fsm ≠ .uninit := by
  by_cases hr : respond a s = .cfg .fail
  · obtain ⟨-, -, hfsm, -⟩ := answer_of_fail hr
    simp [hfsm]
  · obtain ⟨-, -, hfsm, -⟩ := answer_of_ne_fail hr
    rw [hfsm]
    split <;> simp [hb]

/-- An answer ends the sequence or goes on to its next action. -/
theorem movesLeft_answer {a : Action} {s : State} (I : s.Inv) (hb : s.fsm = .busy) (ho : s.outstanding = some a) :
    movesLeft (answer a s) ≤ movesLeft s - 1 := by
  by_cases hbusy : (answer a s).fsm = .busy
  · have hlt := I.idx_busy hb
    rw [movesLeft_of_busy hbusy, movesLeft_of_busy hb, answer_seqIdx_of_busy hbusy, curSeq_answer, I.seqIdx_succ_toNat hb, ho]
    simp only [answer_outstanding, if_true, reduceCtorEq, if_false]
    omega
  · rw [movesLeft_of_ne_busy hbusy]
    exact Nat.zero_le _

section
variable {s t : State} (q : Quiet s)
include q

theorem elapse_of_quiet : elapse s = s := by
  obtain ⟨hh, he, -⟩ := q
  simp only [elapse, hh, he, tickHost, tickEvents]
  rw [← hh, ← he]

theorem nothingDue_of_quiet : NothingDue s := by
  obtain ⟨hh, he, hhung⟩ := q
  exact ⟨by simp [dueEvent, he], by simp [dueHost, hh], hhung⟩

/-- A step of a quiet machine is an answer or an issue in BUSY, and otherwise nothing. -/
theorem step_cases_of_quiet (h : step s = .next t) :
    (s.fsm ≠ .busy ∧ t = s) ∨ (s.fsm = .busy ∧ ∃ a, s.outstanding = some a ∧ t = answer a s) ∨
      (s.fsm = .busy ∧ s.outstanding = none ∧ ∃ a, t = issue a s) := by
  obtain ⟨hne, hnh, hhung⟩ := nothingDue_of_quiet q
  have hself := elapse_of_quiet q
  rcases step_cases h with ⟨ev, he, -⟩ | ⟨-, op, hh, -⟩ | ⟨-, -, hstill, rfl⟩ | ⟨-, -, hb, -, a, ho, rfl⟩ |
    ⟨-, -, hb, -, ho, a, -, rfl⟩
  · simp [hne] at he
  · simp [hnh] at hh
  · exact .inl ⟨hstill.resolve_right (by simp [hhung]), hself⟩
  · exact .inr (.inl ⟨hb, a, ho, by rw [hself]⟩)
  · exact .inr (.inr ⟨hb, ho, a, by rw [hself]⟩)

end

/-- t is a quiet state that a run from s leads to, with at most m moves of its sequence left. -/
structure QuietlyReached (s : State) (m : Nat) (t : State) : Prop where
  inv : t.Inv
  quiet : Quiet t
  uninit_iff : t.fsm = .uninit ↔ s.fsm = .uninit
  initWritten : t.initWritten = s.initWritten
  movesLeft_le : movesLeft t ≤ m

/-- One step uses up a move, and neither leaves UNINIT nor enters it. -/
theorem QuietlyReached.step {s : State} (I : s.Inv) (q : Quiet s) :
    ∃ t, Machine.step s = .next t ∧ QuietlyReached s (movesLeft s - 1) t := by
  obtain ⟨t, ht⟩ := stepNeverStops.2 s I
  have It := stepKeepsInv s t I ht
  have ⟨hhost, hevents, hhung⟩ := q
  refine ⟨t, ht, ?_⟩
  rcases step_cases_of_quiet q ht with ⟨hb, rfl⟩ | ⟨hb, a, ho, rfl⟩ | ⟨hb, ho, a, rfl⟩
  · exact ⟨It, q, Iff.rfl, rfl, by simp [movesLeft_of_ne_busy hb]⟩
  · exact ⟨It, ⟨by simp [hhost], by simp [hevents], by simp [hhung]⟩, by simp [answer_ne_uninit hb, hb], by simp, movesLeft_answer I hb ho⟩
  · exact ⟨It, q, Iff.rfl, rfl, (movesLeft_issue a ho).le⟩

theorem run_succ_of_step {s u : State} (h : step s = .next u) (n : Nat) :
    Host.Core.run core (n + 1) s = Host.Core.run core n u := by
  have hcore : core.step s = .next u := h
  simp only [Host.Core.run, hcore]

/-- n moves use up n of the moves left. -/
theorem QuietlyReached.run (n : Nat) {s : State} (I : s.Inv) (q : Quiet s) :
    ∃ t, Host.Core.run core n s = .next t ∧ QuietlyReached s (movesLeft s - n) t := by
  induction n generalizing s with
  | zero => exact ⟨s, rfl, I, q, Iff.rfl, rfl, le_rfl⟩
  | succ n ih =>
    obtain ⟨u, hstep, hu⟩ := QuietlyReached.step I q
    obtain ⟨t, hrun, ht⟩ := ih hu.inv hu.quiet
    refine ⟨t, (run_succ_of_step hstep n).trans hrun, ht.inv, ht.quiet, ht.uninit_iff.trans hu.uninit_iff,
      ht.initWritten.trans hu.initWritten, ?_⟩
    have := ht.movesLeft_le
    have := hu.movesLeft_le
    omega

/-- Out of BUSY with no host operation left, a run is over but in UNINIT after a legal INIT (R129). -/
theorem runOver_iff {t : State} (hh : t.host = []) (hb : t.fsm ≠ .busy) :
    runOver t ↔ ¬(t.fsm = .uninit ∧ t.initWritten = true) := by
  simp only [runOver, hh, true_and]
  cases hf : t.fsm <;> simp_all

/-! ### The writes of a legal INIT -/

/-- The words that UNINIT accepts are those of an INIT with two different pins (R92, R201). -/
theorem legalInit_iff (w : Word) : legalInit w = true ↔ ∃ c d, decode (.cmd w) = .ok (.init c d) ∧ c ≠ d := by
  simp only [decode]
  rcases hd : decodeCmd w with e | i
  · simp [legalInit, (check_illegal_iff hw .uninit w).2 ⟨e, hd⟩]
  · obtain ⟨rfl, ⟨c, d, rfl⟩ | ⟨l, rfl⟩ | ⟨p, b, rfl⟩⟩ := decodeCmd_ok hd
    · simp [legalInit_init]
    · simp [legalInit_setBrightness]
    · simp [legalInit_writeSegmentRaw]

theorem isInitWrite_iff (op : HostOp) : isInitWrite op = true ↔ ∃ w, op = .write 0 w ∧ legalInit w = true := by
  cases op <;> simp [isInitWrite]

/-- Only a CMD write writes an INIT. -/
theorem isCmdWrite_of_isInitWrite {op : HostOp} (h : isInitWrite op = true) : isCmdWrite op = true := by
  obtain ⟨w, rfl, -⟩ := (isInitWrite_iff op).1 h
  rfl

/-- A CMD write has its turn when it is first in the queue outside BUSY (R120). -/
theorem dueHost_write_iff (s : State) (w : Word) :
    dueHost s = some (.write 0 w) ↔ s.fsm ≠ .busy ∧ ∃ rest, s.host = ⟨0, .write 0 w⟩ :: rest := by
  constructor
  · intro h
    unfold dueHost at h
    split at h
    case h_1 op rest hhost =>
      split at h
      case isTrue => cases h
      case isFalse hn =>
        cases h
        exact ⟨fun hb => hn ⟨rfl, hb⟩, rest, hhost⟩
    case h_2 => cases h
  · rintro ⟨hb, rest, hhost⟩
    exact dueHost_of_head hhost (fun hn => hb hn.2)

/-- A legal INIT has its turn in s. -/
def InitDue (s : State) : Prop := ∃ op, dueHost s = some op ∧ isInitWrite op = true

theorem initDue_iff (s : State) :
    InitDue s ↔ s.fsm ≠ .busy ∧ ∃ w rest c d, s.host = ⟨0, .write 0 w⟩ :: rest ∧ decode (.cmd w) = .ok (.init c d) ∧ c ≠ d := by
  constructor
  · rintro ⟨op, hop, hinit⟩
    obtain ⟨w, rfl, hw⟩ := (isInitWrite_iff op).1 hinit
    obtain ⟨c, d, hd, hcd⟩ := (legalInit_iff w).1 hw
    obtain ⟨hb, rest, hhost⟩ := (dueHost_write_iff s w).1 hop
    exact ⟨hb, w, rest, c, d, hhost, hd, hcd⟩
  · rintro ⟨hb, w, rest, c, d, hhost, hd, hcd⟩
    exact ⟨_, (dueHost_write_iff s w).2 ⟨hb, rest, hhost⟩, (isInitWrite_iff _).2 ⟨w, rfl, (legalInit_iff w).2 ⟨c, d, hd, hcd⟩⟩⟩

theorem initDue_of_due {s : State} {op : HostOp} (h : dueHost s = some op) : InitDue s ↔ isInitWrite op = true := by
  simp [InitDue, h]

/-- A reset notes a legal INIT whose turn it takes (R211; log entry 30). -/
theorem initWritten_dropCmdWrite (s : State) :
    (dropCmdWrite s).initWritten = true ↔ s.initWritten = true ∨ InitDue s := by
  unfold dropCmdWrite
  split
  case h_1 op hop =>
    rw [initDue_of_due hop]
    split
    case isTrue => simp
    case isFalse hcmd =>
      have hinit : ¬isInitWrite op = true := fun h => hcmd (isCmdWrite_of_isInitWrite h)
      simp [hinit]
  case h_2 hnone => simp [InitDue, hnone]

/-- A step notes the legal INIT that has its turn, unless an event other than a reset comes first. -/
theorem step_initWritten {s t : State} (h : step s = .next t) :
    t.initWritten = true ↔ s.initWritten = true ∨ ((dueEvent s = none ∨ dueEvent s = some .reset) ∧ InitDue s) := by
  rcases step_cases h with ⟨ev, he, rfl⟩ | ⟨he, op, hop, hm⟩ | ⟨-, hno, -, rfl⟩ | ⟨-, hno, -, -, a, -, rfl⟩ |
    ⟨-, hno, -, -, -, a, -, rfl⟩
  · by_cases hev : ev = .reset
    · subst hev
      exact (initWritten_dropCmdWrite (popEvent s)).trans (by simp [he, InitDue, dueHost_popEvent])
    · simp [(onEvent_keeps hev (popEvent s)).2, he, hev]
  · obtain ⟨-, -, -, hwritten⟩ := hostMove_keeps hm
    rw [hwritten]
    simp [he, initDue_of_due hop]
  all_goals simp [InitDue, hno]

/-- Settles O60: a run uses up the moves left, of which there are at most 504; what is noted is the INIT whose turn a step takes. -/
theorem everyRunEnds : Obligations.EveryRunEnds := by
  refine ⟨fun s I q => ?_, fun s t h => ?_⟩
  · obtain ⟨t, hrun, ht⟩ := QuietlyReached.run 504 I q
    have hleft : movesLeft t = 0 := by
      have := ht.movesLeft_le
      have := movesLeft_le s
      omega
    have hb := ht.inv.ne_busy_of_movesLeft hleft
    obtain ⟨hhost, -⟩ := ht.quiet
    refine ⟨t, hrun, hhost, hb, ?_⟩
    rw [runOver_iff hhost hb, ht.uninit_iff, ht.initWritten]
  · rw [step_initWritten h, initDue_iff, and_left_comm]

end Sys2Proof.Machine
end

section
/-! PROOF. The family 30_encoding: decoding and encoding (R90 to R97, R100), illegal words (R95), a wire byte in and out of its place
(R97, R163), and the lines of a host program (R101, R102). -/

namespace Sys2Proof.Machine

/-! ### Decoding -/

theorem decodeCmd_init (c d : PinId) : decodeCmd (cmdWordOf (.init c d)) = .ok (.init c d) := by
  obtain ⟨hopc, hres, hc, hd⟩ := cmdWord_init_fields c d
  simp [decodeCmd, hopc, hres, hc, hd]

theorem decodeCmd_setBrightness (l : Byte) : decodeCmd (cmdWordOf (.setBrightness l)) = .ok (.setBrightness l) := by
  obtain ⟨hopc, hres, hl⟩ := cmdWord_setBrightness_fields l
  simp [decodeCmd, hopc, hres, hl]

theorem decodeCmd_writeSegmentRaw (p b : Byte) :
    decodeCmd (cmdWordOf (.writeSegmentRaw p b)) = .ok (.writeSegmentRaw p b) := by
  obtain ⟨hopc, hres, hp, hb⟩ := cmdWord_writeSegmentRaw_fields p b
  simp [decodeCmd, hopc, hres, hp, hb]

/-- Settles O2, format by format; a wire byte decodes in its place to the instruction of that place. -/
theorem decodeOfEncode : Obligations.DecodeOfEncode := by
  intro i
  cases i with
  | init c d => exact decodeCmd_init c d
  | setBrightness l => exact decodeCmd_setBrightness l
  | writeSegmentRaw p b => exact decodeCmd_writeSegmentRaw p b
  | encode dot idx => exact congrArg Except.ok (decodeEnc_append dot idx)
  | wireDataCmd => exact decodeWire_wireByte .dataCmd 0 0 0
  | wireAddrCmd pos => exact decodeWire_wireByte .addrCmd pos 0 0
  | wireData bm => exact decodeWire_wireByte .data 0 bm 0
  | wireDispCtrl bri => exact decodeWire_wireByte .dispCtrl 0 0 bri

/-- Settles O1, by evaluation of the decoder on each word. -/
theorem decodesWordsOfTheFormats : Obligations.DecodesWordsOfTheFormats := by
  refine ⟨?_, ?_, ?_, ?_, ?_, ?_, ?_, ?_⟩ <;> decide

/-- Each of the three opcodes leaves one reserved field to be 0, and no other opcode is legal (R95). -/
theorem decodeCmd_error_iff (w : Word) :
    (∃ e, decodeCmd w = .error e) ↔
      (opcOf w ≠ 0x01 ∧ opcOf w ≠ 0x02 ∧ opcOf w ≠ 0x03) ∨
      (opcOf w = 0x01 ∧ bits23to16 w ≠ 0) ∨ (opcOf w = 0x02 ∧ bits23to8 w ≠ 0) ∨ (opcOf w = 0x03 ∧ bits23to16 w ≠ 0) := by
  unfold decodeCmd
  split_ifs <;> simp_all

theorem writeReg_of_error {w : Word} {e : DecodeError} (he : decodeCmd w = .error e) (s : State) :
    writeReg 0 w s = writeIllegal w s := by
  simp [writeReg, writeCmd, decode, he]

/-- Settles O3: the decoder's branches are R95's cases, and a refused word's write is the illegal word's. -/
theorem illegalWords : Obligations.IllegalWords := by
  intro w
  refine ⟨decodeCmd_error_iff w, fun i hi => (decodeCmd_ok hi).2, ?_⟩
  rintro s ⟨e, he⟩ hready
  rw [writeReg_of_error he, writeIllegal_of_ready hready he]
  rfl

/-! ### A wire byte in its place and outside it -/

theorem step_engine {s : State} (he : dueEvent s = none) (hh : dueHost s = none) : step s = engineMove (elapse s) := by
  simp [step, turn, he, hh]

/-- Settles O23: the engine's move at a byte is exec of the byte's instruction. -/
theorem stepRunsWireByte : Obligations.StepRunsWireByte := by
  intro s role i ⟨he, hh, hhung⟩ hbusy hop hrole hdec
  have hbyte : byteInstr (elapse s) = some i := by simp [byteInstr, hop, hrole, hdec, Except.toOption]
  rw [step_engine he hh, engineMove, if_pos ⟨hbusy, hhung⟩, hbyte]
  rfl

/-- The instruction of a wire byte, whatever its operand, is refused outside its role's 57 indices (R163; log entry 10). -/
theorem exec_byteInstrOf_out_of_place {role : ByteRole} {s : State}
    (h : ¬(s.fsm = .busy ∧ s.op = .write ∧ byteStart role ≤ s.seqIdx.toNat ∧ s.seqIdx.toNat ≤ byteStart role + 56))
    (pos : BitVec 3) (bm : Byte) (bri : BitVec 3) : exec (byteInstrOf role pos bm bri) s = .refused .byteOutOfPlace := by
  have hplace : ¬(s.fsm = .busy ∧ s.op = .write ∧ roleAt s.seqIdx.toNat = some role) := by
    rwa [roleAt_eq_some_iff, Nat.lt_succ_iff]
  rw [exec_byteInstrOf, byteMove, if_neg hplace]

/-- Settles O30: the four bytes are the four roles of `exec_byteInstrOf_out_of_place`. -/
theorem wireByteOutOfPlace : Obligations.WireByteOutOfPlace := fun _ =>
  ⟨fun h => exec_byteInstrOf_out_of_place (role := .dataCmd) h 0 0 0,
    fun h pos => exec_byteInstrOf_out_of_place (role := .addrCmd) h pos 0 0,
    fun h bm => exec_byteInstrOf_out_of_place (role := .data) h 0 bm 0,
    fun h bri => exec_byteInstrOf_out_of_place (role := .dispCtrl) h 0 0 bri⟩

/-! ### The loop `wait` -/

/-- STATUS.STATE reads 2 in BUSY and in no other state (R23, R28). -/
theorem statusWord_state_eq_two_iff (s : State) : (statusWord s).extractLsb' 0 2 = 2#2 ↔ s.fsm = .busy := by
  rw [statusWord_state]
  cases s.fsm <;> decide

theorem pollOnce_eq (s : State) :
    pollOnce s = if s.fsm = .busy then pushHost ⟨1, .poll⟩ (hostRead 1 s) else hostRead 1 s :=
  if_congr (statusWord_state_eq_two_iff s) rfl rfl

/-- Settles O45: the read of STATUS is no CMD write, so BUSY does not hold it. -/
theorem waitPollsStatus : Obligations.WaitPollsStatus := by
  intro s rest he h
  have hstep : step s = .next (pollOnce { s with host := rest }) := by
    rw [step_of_head he h (by simp [isCmdWrite])]
    simp [hostMove, isInitWrite]
  rw [hstep, pollOnce_eq]
  exact ⟨fun hb => by rw [if_pos hb]; rfl, fun hb => by rw [if_neg hb]; rfl⟩

/-! ### The lines of a host program -/

/-- A number that fits its field is the field's value (R101). -/
theorem toNat_byte {n : Nat} (h : n < 256) : (BitVec.ofNat 8 n).toNat = n := Nat.mod_eq_of_lt h

/-- The one operation of `wrseg`, which `wrglyph` and `blank` share, by the fields of its word (R94, R101). -/
theorem wrsegOps_fields {pos : Nat} (hpos : pos < 256) (bm : Byte) :
    ∃ w, wrsegOps pos bm = [⟨0, .write 0 w⟩] ∧
      opcOf w = 0x03 ∧ bits23to16 w = 0 ∧ (bits15to8 w).toNat = pos ∧ bits7to0 w = bm := by
  obtain ⟨hopc, hres, hp, hb⟩ := cmdWord_writeSegmentRaw_fields (BitVec.ofNat 8 pos) bm
  exact ⟨_, rfl, hopc, hres, by rw [hp, toNat_byte hpos], hb⟩

theorem assemble_init_fields {clk dio : Nat} (hclk : clk < 256) (hdio : dio < 256) :
    ∃ w, assemble (.init clk dio) = some [⟨0, .write 0 w⟩] ∧
      opcOf w = 0x01 ∧ bits23to16 w = 0 ∧ (bits15to8 w).toNat = clk ∧ (bits7to0 w).toNat = dio := by
  obtain ⟨hopc, hres, hc, hd⟩ := cmdWord_init_fields (BitVec.ofNat 8 clk) (BitVec.ofNat 8 dio)
  exact ⟨_, if_pos ⟨hclk, hdio⟩, hopc, hres, by rw [hc, toNat_byte hclk], by rw [hd, toNat_byte hdio]⟩

theorem assemble_setbri_fields {l : Nat} (hl : l < 256) :
    ∃ w, assemble (.setbri l) = some [⟨0, .write 0 w⟩] ∧
      opcOf w = 0x02 ∧ bits23to8 w = 0 ∧ (bits7to0 w).toNat = l := by
  obtain ⟨hopc, hres, hb⟩ := cmdWord_setBrightness_fields (BitVec.ofNat 8 l)
  exact ⟨_, if_pos hl, hopc, hres, by rw [hb, toNat_byte hl]⟩

theorem assemble_wrseg_fields {pos bm : Nat} (hpos : pos < 256) (hbm : bm < 256) :
    ∃ w, assemble (.wrseg pos bm) = some [⟨0, .write 0 w⟩] ∧
      opcOf w = 0x03 ∧ bits23to16 w = 0 ∧ (bits15to8 w).toNat = pos ∧ (bits7to0 w).toNat = bm := by
  obtain ⟨w, hops, hopc, hres, hp, hb⟩ := wrsegOps_fields hpos (BitVec.ofNat 8 bm)
  refine ⟨w, ?_, hopc, hres, hp, by rw [hb, toNat_byte hbm]⟩
  rw [assemble, if_pos ⟨hpos, hbm⟩, hops]

theorem assemble_wrglyph_fields {pos idx dot : Nat} (hpos : pos < 256) (hidx : idx < 256) (hdot : dot < 2) :
    ∃ e i w, assemble (.wrglyph pos idx dot) = some [⟨0, .encode e i⟩, ⟨0, .write 0 w⟩] ∧ i.toNat = idx ∧ (e = true ↔ dot = 1) ∧
      opcOf w = 0x03 ∧ bits23to16 w = 0 ∧ (bits15to8 w).toNat = pos ∧ bits7to0 w = encodeGlyph hw e i := by
  obtain ⟨w, hops, hfields⟩ := wrsegOps_fields hpos (encodeGlyph hw (decide (dot = 1)) (BitVec.ofNat 8 idx))
  refine ⟨decide (dot = 1), BitVec.ofNat 8 idx, w, ?_, toNat_byte hidx, decide_eq_true_iff, hfields⟩
  rw [assemble, if_pos ⟨hpos, hidx, hdot⟩, hops, now]

theorem assemble_blank_fields {pos : Nat} (hpos : pos < 256) :
    ∃ w, assemble (.blank pos) = some [⟨0, .write 0 w⟩] ∧
      opcOf w = 0x03 ∧ bits23to16 w = 0 ∧ (bits15to8 w).toNat = pos ∧ bits7to0 w = 0x00 := by
  obtain ⟨w, hops, hfields⟩ := wrsegOps_fields hpos 0x00
  refine ⟨w, ?_, hfields⟩
  rw [assemble, if_pos hpos, hops]

/-- Settles O46, line by line: the operands that fit, then those that do not. -/
theorem assemblerExpansions : Obligations.AssemblerExpansions := by
  refine ⟨fun _ _ => assemble_init_fields, fun _ => assemble_setbri_fields, fun _ _ => assemble_wrseg_fields,
    fun idx dot hidx hdot => ?enc, ⟨rfl, rfl, rfl⟩, fun v hv => ?word, fun _ _ _ => assemble_wrglyph_fields,
    fun _ => assemble_blank_fields, rfl, ?unfit⟩
  case enc => exact ⟨_, _, if_pos ⟨hidx, hdot⟩, toNat_byte hidx, decide_eq_true_iff⟩
  case word => exact ⟨_, if_pos hv, Nat.mod_eq_of_lt hv⟩
  case unfit =>
    exact ⟨fun _ _ h => if_neg (by omega), fun _ h => if_neg (by omega), fun _ _ h => if_neg (by omega),
      fun _ _ h => if_neg (by omega), fun _ h => if_neg (by omega), fun _ _ _ h => if_neg (by omega), fun _ h => if_neg (by omega)⟩

end Sys2Proof.Machine
end

section
/-! PROOF. The family 40_host_commands: what the three commands do on acceptance and what they leave (R120 to R130, R201, R202). -/

namespace Sys2Proof.Machine

/-! ### The three commands on acceptance -/

/-- Settles O7: the word's fields are the operands, and `Check` compares them. -/
theorem initResult : Obligations.InitResult := by
  intro s c d hready
  rw [execInit_of_ready hready]
  exact ⟨fun hcd => by rw [if_neg hcd]; rfl, fun hcd => by rw [if_pos hcd]; rfl⟩

/-- The clamp is the minimum as a number: 7 is the largest value of BRIGHTNESS, so nothing is cut off (R125). -/
theorem clamp7_toNat (v : Byte) : (clamp7 v).toNat = min v.toNat 7 := by
  rw [clamp7, BitVec.toNat_ofNat]
  omega

/-- Settles O8: LEVEL is clamped as a number, and UNINIT refuses the word. -/
theorem setBrightnessResult : Obligations.SetBrightnessResult := by
  refine fun s l => ⟨fun hidle => ⟨performSetBrightness l s, ?_, clamp7_toNat l, rfl⟩, fun huninit => ?_⟩
  · simp [execSetBrightness_of_ready (.inr hidle), hidle]
  · rw [execSetBrightness_of_ready (.inl huninit), if_pos huninit]
    rfl

/-- POSITION keeps the whole of a POS that is a digit of the display (R26, R126). -/
theorem positionOf_toNat {p : Byte} (h : p.toNat < hw.nDigits) : (positionOf p).toNat = p.toNat := by
  have hp : p.toNat < 4 := h
  rw [positionOf, BitVec.extractLsb'_toNat, Nat.shiftRight_zero]
  omega

/-- Settles O9: the two refusals come from `Check`, in its order. -/
theorem writeSegmentRawResult : Obligations.WriteSegmentRawResult := by
  refine fun s p b => ⟨fun hidle hp => ⟨performWriteSegmentRaw p b s, ?_, positionOf_toNat hp, rfl⟩, fun hidle hp => ?_,
    fun huninit => ?_⟩
  · simp [execWriteSegmentRaw_of_ready (.inr hidle), hidle, hp]
  · rw [execWriteSegmentRaw_of_ready (.inr hidle), if_neg (by simp [hidle]), if_pos hp]
    rfl
  · rw [execWriteSegmentRaw_of_ready (.inl huninit), if_pos huninit]
    rfl

/-! ### What the commands leave -/

/-- Outside UNINIT and IDLE the word is not taken (R120, R209). -/
theorem accept_of_not_ready {s : State} (h : ¬(s.fsm = .uninit ∨ s.fsm = .idle)) (w : Word) (f : State → State) :
    accept w f s = .next s := by
  cases hf : s.fsm with
  | busy => exact accept_of_busy hf w f
  | fault => exact accept_of_fault hf w f
  | uninit => exact absurd (.inl hf) h
  | idle => exact absurd (.inr hf) h

/-- All a CMD write leaves: the state as it was, with a cause of refusal, or performed (R120, R201, R209). -/
theorem accept_cases {w : Word} {f : State → State} {s t : State} (h : accept w f s = .next t) :
    t = s ∨ (∃ c, t = raiseFault c w s) ∨ t = f s := by
  by_cases hready : s.fsm = .uninit ∨ s.fsm = .idle
  · rw [accept_of_ready hready, checked] at h
    cases h
    split
    · exact .inr (.inr rfl)
    · exact .inr (.inl ⟨_, rfl⟩)
  · rw [accept_of_not_ready hready] at h
    cases h
    exact .inl rfl

/-- What no command touches: the action in flight, a hang, the trace, the pins, the ENCODE port and the outside world. -/
def CommandKeeps (s t : State) : Prop :=
  t.outstanding = s.outstanding ∧ t.hung = s.hung ∧ t.trace = s.trace ∧ SamePins s t ∧ SameEncoder s t ∧ SameOutside s t

/-- States that differ in the engine's registers at most are such. -/
theorem commandKeeps_of_registers {s t : State}
    (h : t = { s with
      fsm := t.fsm, op := t.op, seqIdx := t.seqIdx, clkPin := t.clkPin, dioPin := t.dioPin, brightness := t.brightness,
      position := t.position, bitmap := t.bitmap, ackLog := t.ackLog, faultCause := t.faultCause, faultInfo := t.faultInfo }) :
    CommandKeeps s t := by
  rw [h]
  exact ⟨rfl, rfl, rfl, fun _ => ⟨rfl, rfl⟩, ⟨rfl, rfl⟩, rfl, rfl, rfl, rfl, rfl, rfl, rfl, rfl⟩

/-- Settles O10: no command, and no refusal of one, writes anything but engine registers. -/
theorem commandFrame : Obligations.CommandFrame := by
  intro s t common
  refine ⟨fun c d h => ?_, fun l h => ?_, fun p b h => ?_⟩
  · rcases accept_cases h with rfl | ⟨c, rfl⟩ | rfl <;> exact ⟨commandKeeps_of_registers rfl, rfl, rfl⟩
  · rcases accept_cases h with rfl | ⟨c, rfl⟩ | rfl <;>
      exact ⟨commandKeeps_of_registers rfl, rfl, rfl, rfl, rfl, rfl, rfl, rfl⟩
  · rcases accept_cases h with rfl | ⟨c, rfl⟩ | rfl <;> exact ⟨commandKeeps_of_registers rfl, rfl, rfl, rfl⟩

/-! ### BUSY -/

/-- A CMD write that BUSY holds has no turn (R120). -/
theorem dueHost_of_held {s : State} {op : HostOp} {rest : List HostReq} (h : s.host = ⟨0, op⟩ :: rest)
    (hcmd : isCmdWrite op = true) (hb : s.fsm = .busy) : dueHost s = none := by
  simp only [dueHost, h, hcmd, hb, and_self, if_true]

/-- Settles O5: with the host held, the step is an answer, an issue or, in a hang, neither, and no move takes the write. -/
theorem busyHoldsCmdWrite : Obligations.BusyHoldsCmdWrite := by
  intro s t w rest hb hhost he h
  have hheld : dueHost s = none := dueHost_of_held hhost rfl hb
  have hfirst : tickHost s.host = s.host := by rw [hhost]; rfl
  rcases step_cases h with ⟨ev, hev, -⟩ | ⟨-, op, hop, -⟩ | ⟨-, -, hstill, rfl⟩ | ⟨-, -, -, hhung, a, ho, rfl⟩ |
    ⟨-, -, -, hhung, ho, a, -, rfl⟩
  · simp [he] at hev
  · simp [hheld] at hop
  · have hhung : s.hung = true := hstill.resolve_left (not_not_intro hb)
    exact ⟨hfirst, by rw [if_pos hhung]⟩
  · refine ⟨by simpa using hfirst, ?_⟩
    rw [if_neg (by simp [hhung])]
    exact ⟨a, .inl ⟨ho, rfl⟩⟩
  · refine ⟨hfirst, ?_⟩
    rw [if_neg (by simp [hhung])]
    exact ⟨a, .inr ⟨ho, rfl⟩⟩

/-- The operands of a command, the pins' identifiers and the brightness, from which the running sequence is read (R24). -/
structure SameOperands (s t : State) : Prop where
  op : t.op = s.op
  clkPin : t.clkPin = s.clkPin
  dioPin : t.dioPin = s.dioPin
  brightness : t.brightness = s.brightness
  position : t.position = s.position
  bitmap : t.bitmap = s.bitmap

theorem SameOperands.curSeq_eq {s t : State} (h : SameOperands s t) : curSeq t = curSeq s :=
  curSeq_congr h.op h.clkPin h.dioPin h.position h.bitmap h.brightness

theorem SameOperands.trans {s t u : State} (h : SameOperands s t) (h' : SameOperands t u) : SameOperands s u where
  op := h'.op.trans h.op
  clkPin := h'.clkPin.trans h.clkPin
  dioPin := h'.dioPin.trans h.dioPin
  brightness := h'.brightness.trans h.brightness
  position := h'.position.trans h.position
  bitmap := h'.bitmap.trans h.bitmap

theorem SameMachine.sameOperands {s u : State} (h : SameMachine s u) : SameOperands s u := { h with }

theorem sameOperands_answer (a : Action) (s : State) : SameOperands s (answer a s) := by constructor <;> simp

/-- In BUSY no effect but a reset writes an operand: the commands, which do, have no turn (R120). -/
theorem Effect.sameOperands_of_busy {due : Option Event} {u t : State} (e : Effect due u t) (hb : u.fsm = .busy)
    (hno : due ≠ some .reset) : SameOperands u t := by
  cases e with
  | reset hdue => exact absurd hdue hno
  | pinWrite p w => cases w <;> constructor <;> rfl
  | init c d hready => exact absurd hb (ne_busy_of_ready hready)
  | setBrightness l hidle => simp [hb] at hidle
  | writeSegmentRaw p b hidle => simp [hb] at hidle
  | answer a => exact sameOperands_answer a u
  | _ => constructor <;> rfl

/-- Settles O50, effect by effect. -/
theorem operandsStableInBusy : Obligations.OperandsStableInBusy := by
  intro s t hb hno h
  obtain ⟨u, hu, e⟩ := step_effect h
  have hops := hu.sameOperands.trans (e.sameOperands_of_busy (hu.fsm.trans hb) hno)
  exact ⟨hops.op, hops.clkPin, hops.dioPin, hops.brightness, hops.position, hops.bitmap, hops.curSeq_eq⟩

end Sys2Proof.Machine
end

section
/-! PROOF. The family 40_host_commands: what steers nothing (R128, R158, R236). Two states are compared after `erase` has blotted out what
they may differ in; an operation that does not read what is erased is `Blind`, and so is the step. -/

namespace Sys2Proof.Machine

/-- s without ACK_LOG, the levels to come and what the host last read, and without the pins unless they are kept. -/
def erase (keepPins : Bool) (s : State) : State :=
  { s with
    dirs := if keepPins then s.dirs else []
    latches := if keepPins then s.latches else []
    ackLog := 0
    levelScript := []
    levelDraws := 0
    rdData := 0 }

/-- The states differ in nothing but what is erased. -/
def Alike (keepPins : Bool) (s s' : State) : Prop := erase keepPins s' = erase keepPins s

theorem sameButSamples_iff_alike (s s' : State) : SameButSamples s s' ↔ Alike true s s' := by
  constructor
  · intro h
    rw [SameButSamples] at h
    rw [h]
    rfl
  · intro h
    cases s
    cases s'
    simp_all [SameButSamples, Alike, erase]

theorem sameButPins_iff_alike (s s' : State) : SameButPins s s' ↔ Alike false s s' := by
  constructor
  · intro h
    rw [SameButPins] at h
    rw [h]
    rfl
  · intro h
    cases s
    cases s'
    simp_all [SameButPins, Alike, erase]

/-! ### Operations that do not read what is erased -/

/-- What f makes of a state is, but for what is erased, what it makes of the state with that erased. -/
def Blind (k : Bool) (f : State → State) : Prop := ∀ s, erase k (f (erase k s)) = erase k (f s)

section
variable {k : Bool}

theorem Blind.alike {f : State → State} (hf : Blind k f) {s s' : State} (h : Alike k s s') : Alike k (f s) (f s') := by
  rw [Alike, ← hf s', ← hf s, h]

theorem Blind.comp {f g : State → State} (hf : Blind k f) (hg : Blind k g) : Blind k fun s => f (g s) :=
  fun s => hf.alike (hg s)

theorem Blind.ite {p : State → Prop} [DecidablePred p] {f g : State → State} (hp : ∀ s, p (erase k s) ↔ p s)
    (hf : Blind k f) (hg : Blind k g) : Blind k fun s => if p s then f s else g s := by
  intro s
  by_cases h : p s
  · simpa only [hp s, h, if_true] using hf s
  · simpa only [hp s, h, if_false] using hg s

theorem blind_id : Blind k fun s => s := fun _ => by cases k <;> rfl

theorem blind_raiseFault (c : State → FaultCause) (w : State → Word) (hc : ∀ s, c (erase k s) = c s)
    (hw : ∀ s, w (erase k s) = w s) : Blind k fun s => raiseFault (c s) (w s) s := by
  intro s
  dsimp only
  rw [hc, hw]
  cases k <;> rfl

theorem blind_setDir (p : PinId) (d : Dir) : Blind k (setDir p d) := fun _ => by cases k <;> rfl

theorem blind_setLatch (p : PinId) (l : Latch) : Blind k (setLatch p l) := fun _ => by cases k <;> rfl

theorem blind_issue (a : Action) : Blind k (issue a) := fun _ => by cases k <;> rfl

theorem blind_received : Blind k received := fun _ => by cases k <;> rfl

theorem blind_consumeCfg : Blind k consumeCfg := fun _ => by cases k <;> rfl

theorem blind_elapse : Blind k elapse := fun _ => by cases k <;> rfl

theorem blind_hostRead (reg : BitVec 2) : Blind k (hostRead reg) := fun _ => by cases k <;> rfl

theorem blind_noteOp_popHost (op : HostOp) : Blind k fun s => noteOp op (popHost s) := fun _ => by cases k <;> rfl

/-- The end of a sequencer step reads SEQ_IDX and the operands (R121). -/
theorem blind_finish : Blind k finish :=
  .ite (fun _ => Iff.rfl) (fun _ => by cases k <;> rfl) fun _ => by cases k <;> rfl

/-- The loop `wait` reads STATUS, of which STATE alone steers it (R102). -/
theorem blind_pollOnce : Blind k pollOnce := by
  rw [funext pollOnce_eq]
  exact .ite (fun _ => Iff.rfl) (fun _ => by cases k <;> rfl) (blind_hostRead 1)

/-- The sample of a GET goes to ACK_LOG, and the level drawn is one of those to come: both are erased (R157). -/
theorem erase_answer_get (p : PinId) (s : State) : erase k (answer (.get p) s) = erase k (finish (received s)) := by
  rcases hd : drivenLevel p s with _ | b
  · rw [answer_get_undriven hd]
    exact blind_finish.alike rfl
  · rw [answer_get_driven hd]
    exact blind_finish.alike rfl

theorem blind_answer_cfg {p : PinId} {d : Dir} {a : Action} (ha : a = .cfgOut p ∨ a = .cfgIn p)
    (hok : ∀ s, cfgAnswer s = .ok → answer a s = finish (received (setDir p d (consumeCfg s)))) : Blind k (answer a) := by
  intro s
  cases hr : cfgAnswer s
  · rw [hok s hr, hok (erase k s) hr]
    exact (blind_finish.comp (blind_received.comp ((blind_setDir p d).comp blind_consumeCfg))) s
  · rw [answer_cfg_fail ha hr, answer_cfg_fail (s := erase k s) ha hr]
    cases k <;> rfl

/-- What the engine makes of an answer turns on the response to a CFG action and on nothing that is erased (R121, R128). -/
theorem blind_answer (a : Action) : Blind k (answer a) := by
  cases a with
  | cfgOut p => exact blind_answer_cfg (.inl rfl) fun _ => answer_cfgOut_ok
  | cfgIn p => exact blind_answer_cfg (.inr rfl) fun _ => answer_cfgIn_ok
  | set p v => exact blind_finish.comp (blind_received.comp (blind_setLatch p _))
  | get p =>
    intro s
    rw [erase_answer_get, erase_answer_get]
    exact (blind_finish.comp blind_received) s
  | delay n => exact blind_finish.comp blind_received

theorem blind_dropCmdWrite : Blind k dropCmdWrite := by
  intro s
  have hdue : dueHost (erase k s) = dueHost s := rfl
  simp only [dropCmdWrite, hdue]
  split
  case h_1 op hop => exact Blind.ite (p := fun _ => isCmdWrite op = true) (fun _ => Iff.rfl) (blind_noteOp_popHost op) blind_id s
  case h_2 => exact blind_id s

theorem blind_onEvent (ev : Event) : Blind k (onEvent ev) := by
  cases ev with
  | reset =>
    have hreset : Blind k engineReset := fun _ => by cases k <;> rfl
    exact hreset.comp blind_dropCmdWrite
  | lateResponse r => exact blind_id
  | noAnswer => exact .ite (fun _ => Iff.rfl) (fun _ => by cases k <;> rfl) blind_id
  | pinWrite p w =>
    cases w with
    | dir d => exact blind_setDir p d
    | latch l => exact blind_setLatch p l

/-! ### The moves of the agents -/

/-- A move's next state with that erased; how it stops is kept. -/
def eraseOutcome (k : Bool) : Outcome → Outcome
  | .next s => .next (erase k s)
  | .fault r => .fault r
  | .refused r => .refused r

/-- What a move does is, but for what is erased, what it does in the state with that erased. -/
def BlindMove (k : Bool) (m : State → Outcome) : Prop := ∀ s, eraseOutcome k (m (erase k s)) = eraseOutcome k (m s)

theorem Blind.next {f : State → State} (hf : Blind k f) : BlindMove k fun s => .next (f s) :=
  fun s => congrArg Host.Outcome.next (hf s)

theorem BlindMove.comp {m : State → Outcome} {f : State → State} (hm : BlindMove k m) (hf : Blind k f) :
    BlindMove k fun s => m (f s) := by
  intro s
  dsimp only
  rw [← hm (f (erase k s)), ← hm (f s), hf s]

/-- A command word is checked against FSM (R201). -/
theorem blindMove_accept (w : Word) {f : State → State} (hf : Blind k f) : BlindMove k (accept w f) := by
  have hchecked : Blind k (checked w f) :=
    .ite (fun _ => Iff.rfl) hf (blind_raiseFault (fun s => check hw s.fsm w) (fun _ => w) (fun _ => rfl) fun _ => rfl)
  intro s
  by_cases hready : s.fsm = .uninit ∨ s.fsm = .idle
  · rw [accept_of_ready hready, accept_of_ready (s := erase k s) hready]
    exact hchecked.next s
  · rw [accept_of_not_ready hready, accept_of_not_ready (s := erase k s) hready]
    exact blind_id.next s

theorem blindMove_writeCmd (w : Word) : BlindMove k (writeCmd w) := by
  intro s
  simp only [writeCmd, decode]
  rcases hd : decodeCmd w with e | i
  · exact blindMove_accept w blind_id s
  · obtain ⟨-, ⟨c, d, rfl⟩ | ⟨l, rfl⟩ | ⟨p, b, rfl⟩⟩ := decodeCmd_ok hd
    · exact blindMove_accept _ (f := performInit c d) (fun _ => by cases k <;> rfl) s
    · exact blindMove_accept _ (f := performSetBrightness l) (fun _ => by cases k <;> rfl) s
    · exact blindMove_accept _ (f := performWriteSegmentRaw p b) (fun _ => by cases k <;> rfl) s

theorem blindMove_hostMove (op : HostOp) : BlindMove k (hostMove op) := by
  cases op with
  | write reg w =>
    intro s
    simp only [hostMove, writeReg]
    split
    · exact blindMove_writeCmd w s
    · exact blind_id.next s
  | read reg => exact (blind_hostRead reg).next
  | encode dot idx =>
    have hdrive : Blind k (driveEncoder dot idx) := fun _ => by cases k <;> rfl
    intro s
    simp only [hostMove, decodeEnc_append]
    exact hdrive.next s
  | poll => exact blind_pollOnce.next

/-- The sequencer reads the action in flight, and else the running sequence at SEQ_IDX (R24, R121). -/
theorem blindMove_sequencerMove : BlindMove k sequencerMove := by
  intro s
  rcases ho : s.outstanding with _ | a
  · have ho' : (erase k s).outstanding = none := ho
    have hnext : (curSeq (erase k s))[(erase k s).seqIdx.toNat]? = (curSeq s)[s.seqIdx.toNat]? := rfl
    simp only [sequencerMove, moveWith, ho, ho', hnext]
    split
    · exact (blind_issue _).next s
    · rfl
  · have ho' : (erase k s).outstanding = some a := ho
    simp only [sequencerMove, moveWith, ho, ho']
    exact (blind_answer a).next s

theorem blindMove_engineMove : BlindMove k engineMove := by
  intro s
  by_cases h : s.fsm = .busy ∧ s.hung = false
  · obtain ⟨hb, hhung⟩ := h
    rw [engineMove_of_busy hb hhung, engineMove_of_busy (s := erase k s) hb hhung]
    exact blindMove_sequencerMove s
  · have hstill := still_of_not h
    rw [engineMove_of_still hstill, engineMove_of_still (s := erase k s) hstill]
    exact blind_id.next s

/-- Whose turn it is stands in the queues, and no agent's move reads what is erased. -/
theorem blindMove_step : BlindMove k step := by
  intro s
  rcases he : dueEvent s with _ | ev
  · rcases hh : dueHost s with _ | op
    · rw [step_engine he hh, step_engine (s := erase k s) he hh]
      exact (blindMove_engineMove.comp blind_elapse) s
    · rw [step_host he hh, step_host (s := erase k s) he hh]
      exact ((blindMove_hostMove op).comp (blind_noteOp_popHost op)) s
  · have hpop : Blind k popEvent := fun _ => by cases k <;> rfl
    rw [step_event he, step_event (s := erase k s) he]
    exact ((blind_onEvent ev).comp hpop).next s

theorem step_alike {s s' t : State} (h : Alike k s s') (hs : step s = .next t) : ∃ t', step s' = .next t' ∧ Alike k t t' := by
  have hmove : eraseOutcome k (step s') = .next (erase k t) := by
    rw [← blindMove_step s', h, blindMove_step s, hs]
    rfl
  rcases hs' : step s' with t' | r | r
  · rw [hs'] at hmove
    exact ⟨t', rfl, Host.Outcome.next.inj hmove⟩
  · simp [hs', eraseOutcome] at hmove
  · simp [hs', eraseOutcome] at hmove

end

/-- Settles O33: the step does not read the samples. -/
theorem missingAckTolerated : Obligations.MissingAckTolerated := by
  simp only [Obligations.MissingAckTolerated, sameButSamples_iff_alike]
  exact fun _ _ _ => step_alike

/-- Settles O34: nor does it read the pins. -/
theorem pinsDoNotSteer : Obligations.PinsDoNotSteer := by
  simp only [Obligations.PinsDoNotSteer, sameButPins_iff_alike]
  exact fun _ _ _ => step_alike

end Sys2Proof.Machine
end

section
/-! PROOF. The family 40_host_commands: a list of actions, each issued and then answered (R66, R121), what it leaves when none fails
and when one does, and the wire bytes executed through it (R159). -/

namespace Sys2Proof.Machine

/-! ### Actions issued and answered -/

/-- In BUSY the action is issued and answered; an engine that is not in BUSY any more issues nothing. -/
def perform (s : State) (a : Action) : State := if s.fsm = .busy then answer a (issue a s) else s

/-- The actions one after another. -/
def performAll (l : List Action) (s : State) : State := l.foldl perform s

theorem perform_of_busy {s : State} (h : s.fsm = .busy) (a : Action) : perform s a = answer a (issue a s) := if_pos h

@[simp] theorem performAll_nil (s : State) : performAll [] s = s := rfl

@[simp] theorem performAll_cons (a : Action) (l : List Action) (s : State) : performAll (a :: l) s = performAll l (perform s a) := rfl

theorem performAll_append (l m : List Action) (s : State) : performAll (l ++ m) s = performAll m (performAll l s) :=
  List.foldl_append

theorem performAll_concat (l : List Action) (a : Action) (s : State) : performAll (l ++ [a]) s = perform (performAll l s) a :=
  performAll_append l [a] s

theorem performAll_of_ne_busy {s : State} (h : s.fsm ≠ .busy) (l : List Action) : performAll l s = s := by
  induction l with
  | nil => rfl
  | cons a l ih => rw [performAll_cons, perform, if_neg h, ih]

/-- An issue changes nothing that a collaborator's response turns on. -/
@[simp] theorem respond_issue (a b : Action) (s : State) : respond a (issue b s) = respond a s := by cases a <;> rfl

/-- A mode switch takes the next of the known responses, and no other action takes one (R67, R68). -/
theorem applied_cfgScript (a : Action) (s : State) :
    (applied a s).cfgScript = if isSwitch a = true then s.cfgScript.tail else s.cfgScript := by
  have hconfigured : ∀ p d, (configured p d s).cfgScript = s.cfgScript.tail := by
    intro p d
    unfold configured
    split <;> rfl
  cases a with
  | cfgOut p => exact hconfigured p .out
  | cfgIn p => exact hconfigured p .input
  | get p =>
    simp only [applied]
    split <;> rfl
  | set p v => rfl
  | delay n => rfl

/-- The engine in BUSY with nothing in flight, at an index of the running sequence. -/
structure Begun (s : State) : Prop where
  busy : s.fsm = .busy
  outstanding : s.outstanding = none
  idx_lt : s.seqIdx.toNat < (curSeq s).length

theorem curSeq_length_le (s : State) : (curSeq s).length ≤ 252 := by
  rw [curSeq_length]
  cases s.op <;> simp

/-- R24: SEQ_IDX + 1 does not wrap at an index of the running sequence. -/
theorem seqIdx_succ_toNat {s : State} (h : s.seqIdx.toNat < (curSeq s).length) : (s.seqIdx + 1).toNat = s.seqIdx.toNat + 1 := by
  have hlen := curSeq_length_le s
  rw [BitVec.toNat_add, show (1 : BitVec 8).toNat = 1 from rfl]
  omega

/-- t is what s has become when the actions l have been issued and answered and none has failed: it stands at the index after them, or in
IDLE when they were the last (R121, R122). -/
structure Completed (s : State) (l : List Action) (t : State) : Prop extends SameOperands s t where
  outstanding : t.outstanding = none
  faultCause : t.faultCause = s.faultCause
  trace : t.trace = s.trace ++ l
  cfgScript : t.cfgScript = s.cfgScript.drop (l.countP isSwitch)
  wires : s.clkPin ≠ s.dioPin → wiresOf t = wiresAfter s.clkPin s.dioPin (wiresOf s) l
  fsm : t.fsm = if s.seqIdx.toNat + l.length = (curSeq s).length then .idle else .busy
  seqIdx : t.seqIdx.toNat = if s.seqIdx.toNat + l.length = (curSeq s).length then 0 else s.seqIdx.toNat + l.length

/-- The responses known to come are `ok` for every mode switch in l. -/
def Granted (l : List Action) (s : State) : Prop := List.replicate (l.countP isSwitch) .ok <+: s.cfgScript

/-- t is what s has become when the k-th of the actions l has failed: it is in FAULT at that action, which it has emitted and which has left
the pins (R121, R202, R204, R205). -/
structure Failed (s : State) (l : List Action) (k : Nat) (t : State) : Prop extends SameOperands s t where
  outstanding : t.outstanding = none
  fsm : t.fsm = .fault
  faultCause : t.faultCause = runCause s.op
  seqIdx : t.seqIdx.toNat = s.seqIdx.toNat + k
  trace : t.trace = s.trace ++ l.take (k + 1)
  wires : s.clkPin ≠ s.dioPin → wiresOf t = wiresAfter s.clkPin s.dioPin (wiresOf s) (l.take k)
  switchAt : SwitchAt l k
  not_granted : ¬ Granted l s

section
variable {s t : State} {l m : List Action}

theorem Begun.completed_nil (h : Begun s) : Completed s [] s := by
  have hne : s.seqIdx.toNat + ([] : List Action).length ≠ (curSeq s).length := by simpa using h.idx_lt.ne
  exact {
    op := rfl, clkPin := rfl, dioPin := rfl, brightness := rfl, position := rfl, bitmap := rfl
    outstanding := h.outstanding
    faultCause := rfl
    trace := by simp
    cfgScript := by simp
    wires := fun _ => rfl
    fsm := by rw [if_neg hne, h.busy]
    seqIdx := by rw [if_neg hne]; simp }

/-- Short of the sequence's end the engine is still in BUSY, at the next action. -/
theorem Completed.begun (h : Completed s l t) (hlt : s.seqIdx.toNat + l.length < (curSeq s).length) :
    Begun t ∧ t.seqIdx.toNat = s.seqIdx.toNat + l.length := by
  have hfsm := h.fsm
  have hidx := h.seqIdx
  rw [if_neg hlt.ne] at hfsm hidx
  exact ⟨⟨hfsm, h.outstanding, by rw [hidx, h.curSeq_eq]; exact hlt⟩, hidx⟩

/-- With the sequence's last action the engine is in IDLE (R122). -/
theorem Completed.idle (h : Completed s l t) (hend : s.seqIdx.toNat + l.length = (curSeq s).length) :
    t.fsm = .idle ∧ t.seqIdx = 0 := by
  have hfsm := h.fsm
  have hidx := h.seqIdx
  rw [if_pos hend] at hfsm hidx
  exact ⟨hfsm, BitVec.eq_of_toNat_eq hidx⟩

theorem sameOperands_perform (s : State) (a : Action) : SameOperands s (perform s a) := by
  unfold perform
  split
  · exact { sameOperands_answer a (issue a s) with }
  · constructor <;> rfl

theorem performed_outstanding (ho : s.outstanding = none) (a : Action) : (perform s a).outstanding = none := by
  unfold perform
  split
  · simp
  · exact ho

/-- One action more, if it does not fail. -/
theorem Completed.concat {a : Action} (h : Completed s l t) (hlt : s.seqIdx.toNat + l.length < (curSeq s).length)
    (hr : respond a t ≠ .cfg .fail) : Completed s (l ++ [a]) (perform t a) := by
  obtain ⟨hbegun, hidx⟩ := h.begun hlt
  obtain ⟨hcause, -, hfsm, hseq, -⟩ := answer_of_ne_fail (a := a) (s := issue a t) (by simpa using hr)
  rw [curSeq_issue, h.curSeq_eq, issue_seqIdx, hidx, add_assoc] at hfsm hseq
  have hops := h.toSameOperands.trans (sameOperands_perform t a)
  rw [perform_of_busy hbegun.busy] at hops ⊢
  exact {
    hops with
    outstanding := by simp
    faultCause := hcause.trans h.faultCause
    trace := by simp [h.trace]
    cfgScript := by
      rw [answer_cfgScript, applied_cfgScript, issue_cfgScript, h.cfgScript, List.countP_append, List.countP_singleton]
      split <;> simp [List.tail_drop]
    wires := by
      intro hcd
      rw [wiresOf_answer (s := issue a t) (by simpa [h.clkPin, h.dioPin] using hcd) (by simpa using hr), wiresAfter_append, ← h.wires hcd,
        issue_clkPin, issue_dioPin, h.clkPin, h.dioPin]
      rfl
    fsm := by rw [hfsm, List.length_append, List.length_singleton, issue_fsm, hbegun.busy]
    seqIdx := by
      rw [hseq, List.length_append, List.length_singleton, apply_ite BitVec.toNat, seqIdx_succ_toNat hbegun.idx_lt, hidx, add_assoc]
      rfl }

/-! ### Known responses -/

theorem Granted.of_append (h : Granted (l ++ m) s) : Granted l s := by
  unfold Granted at h ⊢
  rw [List.countP_append, List.replicate_add] at h
  exact (List.prefix_append _ _).trans h

/-- A response known to come for an action that switches a mode is `ok`, so the action does not fail. -/
theorem Granted.respond_ne_fail {a : Action} (h : Granted (l ++ [a]) s) (ht : Completed s l t) : respond a t ≠ .cfg .fail := by
  intro hr
  obtain ⟨rest, hrest⟩ := h
  have hscript : t.cfgScript = .ok :: rest := by
    rw [ht.cfgScript, ← hrest, List.countP_append, List.countP_singleton, if_pos (isSwitch_of_fail hr), List.replicate_succ']
    simp
  obtain ⟨-, hfail⟩ := (respond_eq_fail_iff a t).1 hr
  simp [cfgAnswer, hscript] at hfail

/-- What is left of the known responses when the first actions are completed. -/
theorem Granted.of_completed (h : Granted (l ++ m) s) (ht : Completed s l t) : Granted m t := by
  obtain ⟨rest, hrest⟩ := h
  refine ⟨rest, ?_⟩
  rw [ht.cfgScript, ← hrest, List.countP_append, List.replicate_add, List.append_assoc]
  simp

/-! ### The two ways a list of actions can go -/

theorem SwitchAt.lt {i : Nat} (h : SwitchAt l i) : i < l.length := by
  obtain ⟨a, ha, -⟩ := h
  exact (List.getElem?_eq_some_iff.1 ha).1

/-- The next action fails. -/
theorem Completed.fail {a : Action} (h : Completed s l t) (hlt : s.seqIdx.toNat + l.length < (curSeq s).length)
    (hr : respond a t = .cfg .fail) : Failed s (l ++ [a]) l.length (perform t a) := by
  obtain ⟨hbegun, hidx⟩ := h.begun hlt
  obtain ⟨hcause, -, hfsm, hseq, -, hdirs, hlatches⟩ := answer_of_fail (a := a) (s := issue a t) (by simpa using hr)
  have hops := sameOperands_perform t a
  rw [perform_of_busy hbegun.busy] at hops ⊢
  exact {
    h.toSameOperands.trans hops with
    outstanding := by simp
    fsm := hfsm
    faultCause := by rw [hcause, issue_op, h.op]
    seqIdx := by rw [hseq, issue_seqIdx, hidx]
    trace := by simp [h.trace]
    wires := by
      intro hcd
      have hpins : wiresOf (answer a (issue a t)) = wiresOf t := by
        simp only [wiresOf, hops.clkPin, hops.dioPin, dirOf_congr hdirs, latchOf_congr hlatches]
        rfl
      rw [hpins, h.wires hcd, List.take_left]
    switchAt := ⟨a, by simp, isSwitch_of_fail hr⟩
    not_granted := fun hg => hg.respond_ne_fail h hr }

/-- After a failure nothing further is emitted. -/
theorem Failed.concat {k : Nat} (h : Failed s l k t) (a : Action) : Failed s (l ++ [a]) k (perform t a) := by
  have hlt := h.switchAt.lt
  have hstill : perform t a = t := if_neg (by simp [h.fsm])
  rw [hstill]
  exact {
    h with
    trace := by rw [h.trace, List.take_append_of_le_length hlt]
    wires := by
      intro hcd
      rw [h.wires hcd, List.take_append_of_le_length hlt.le]
    switchAt := (switchAt_append _ _ _).2 (.inl h.switchAt)
    not_granted := fun hg => h.not_granted hg.of_append }

/-- Actions of which the sequence has enough left are all completed, or one of them fails. -/
theorem performAll_cases (h : Begun s) (hlen : s.seqIdx.toNat + l.length ≤ (curSeq s).length) :
    Completed s l (performAll l s) ∨ ∃ k, Failed s l k (performAll l s) := by
  induction l using List.reverseRecOn with
  | nil => exact .inl h.completed_nil
  | append_singleton l a ih =>
    rw [List.length_append, List.length_singleton] at hlen
    rw [performAll_concat]
    rcases ih (by omega) with hdone | ⟨k, hfailed⟩
    · by_cases hr : respond a (performAll l s) = .cfg .fail
      · exact .inr ⟨_, hdone.fail (by omega) hr⟩
      · exact .inl (hdone.concat (by omega) hr)
    · exact .inr ⟨k, hfailed.concat a⟩

theorem completed_of_granted (h : Begun s) (hlen : s.seqIdx.toNat + l.length ≤ (curSeq s).length) (hg : Granted l s) :
    Completed s l (performAll l s) := by
  rcases performAll_cases h hlen with hdone | ⟨k, hfailed⟩
  · exact hdone
  · exact absurd hg hfailed.not_granted

end

/-! ### The samples -/

/-- Only a GET samples a level (R157). -/
theorem perform_samples {a : Action} (ha : isGet a = false) (s : State) :
    (perform s a).levelScript = s.levelScript ∧ (perform s a).ackLog = s.ackLog := by
  unfold perform
  split
  · refine ⟨?_, ?_⟩
    · cases a with
      | get p => simp [isGet] at ha
      | _ => simp [applied]
    · by_cases hr : respond a (issue a s) = .cfg .fail
      · obtain ⟨-, -, -, -, hack, -⟩ := answer_of_fail hr
        exact hack
      · obtain ⟨-, -, -, -, hack⟩ := answer_of_ne_fail hr
        rw [hack]
        cases a with
        | get p => simp [isGet] at ha
        | _ => rfl
  · exact ⟨rfl, rfl⟩

/-- A list that samples nothing. -/
def NoGet (l : List Action) : Prop := ∀ a ∈ l, isGet a = false

theorem NoGet.append {l m : List Action} (hl : NoGet l) (hm : NoGet m) : NoGet (l ++ m) := fun a ha =>
  (List.mem_append.1 ha).elim (hl a) (hm a)

theorem performAll_samples {l : List Action} (hl : NoGet l) (s : State) :
    (performAll l s).levelScript = s.levelScript ∧ (performAll l s).ackLog = s.ackLog := by
  induction l generalizing s with
  | nil => exact ⟨rfl, rfl⟩
  | cons a l ih =>
    obtain ⟨hlevels, hack⟩ := ih (fun b hb => hl b (List.mem_cons_of_mem a hb)) (perform s a)
    obtain ⟨hlevels', hack'⟩ := perform_samples (hl a List.mem_cons_self) s
    exact ⟨hlevels.trans hlevels', hack.trans hack'⟩

/-- The first four actions of an acknowledge window, up to its GET (R155). -/
def sampling (c d : PinId) : List Action := [.cfgIn d, .set c false, settle, .get d]

/-- What follows the GET in the window. -/
def sampled (c d : PinId) : List Action := [.set c true, settle, .set c false, settle, .cfgOut d]

theorem ackSeq_eq (c d : PinId) : ackSeq c d = sampling c d ++ sampled c d := rfl

/-- Only a mode switch writes a direction (R33). -/
theorem perform_dirs {a : Action} (ha : isSwitch a = false) (s : State) : (perform s a).dirs = s.dirs := by
  unfold perform
  split
  · rw [answer_dirs, applied_dirs]
    cases a with
    | cfgOut p => simp [isSwitch, isCfgOut] at ha
    | cfgIn p => simp [isSwitch, isCfgIn] at ha
    | _ => rfl
  · rfl

/-- A window whose first mode switch is answered `ok` has DIO released at its GET (R156). -/
theorem dio_released {s : State} (h : Begun s) (c d : PinId) (hg : Granted [.cfgIn d] s) :
    dirOf d (performAll [.cfgIn d, .set c false, settle] s) = .input := by
  have hok : cfgAnswer s = .ok := by
    have hr : respond (.cfgIn d) s ≠ .cfg .fail := Granted.respond_ne_fail (l := []) hg h.completed_nil
    exact cfgAnswer_ok_of_ne_fail (by simpa [respond] using hr)
  calc dirOf d (performAll [.cfgIn d, .set c false, settle] s)
      = dirOf d (perform s (.cfgIn d)) := dirOf_congr ((perform_dirs rfl _).trans (perform_dirs rfl _))
    _ = dirOf d (configured d .input (issue (.cfgIn d) s)) := by rw [perform_of_busy h.busy, dirOf_answer]; rfl
    _ = .input := by rw [dirOf_configured_of_ok (s := issue (.cfgIn d) s) hok, if_pos rfl]

/-- In a window the level is the outside world's, since DIO is an input there, and its inverse goes to ACK_LOG (R156, R157). -/
theorem sampling_samples {s : State} {c d : PinId} {b : Level} {more : List Level} (h : Begun s)
    (hlen : s.seqIdx.toNat + 4 ≤ (curSeq s).length) (hg : Granted (sampling c d) s) (hb : s.levelScript = b :: more) :
    (performAll (sampling c d) s).levelScript = more ∧
      (performAll (sampling c d) s).ackLog = ackAfter (BitVec.ofNat 8 (s.seqIdx.toNat + 3)) (!b) s.ackLog := by
  have hsplit : sampling c d = [.cfgIn d, .set c false, settle] ++ [.get d] := rfl
  rw [hsplit] at hg ⊢
  rw [performAll_concat]
  have hdone := completed_of_granted h (by simp; omega) hg.of_append
  obtain ⟨hbegun, hidx⟩ := hdone.begun (by simp; omega)
  obtain ⟨hlevels, hack⟩ : _ ∧ _ := performAll_samples (l := [.cfgIn d, .set c false, settle]) (by simp [NoGet, isGet, settle]) s
  have hdir := dio_released h c d hg.of_append.of_append
  generalize performAll [.cfgIn d, .set c false, settle] s = u at *
  have hdriven : drivenLevel d (issue (.get d) u) = none := by
    change drivenBy (dirOf d u) (latchOf d u) = none
    rw [hdir]
    rfl
  have hseq : u.seqIdx = BitVec.ofNat 8 (s.seqIdx.toNat + 3) := by
    apply BitVec.eq_of_toNat_eq
    rw [hidx, BitVec.toNat_ofNat, Nat.mod_eq_of_lt]
    · rfl
    · have := curSeq_length_le s
      omega
  rw [perform_of_busy hbegun.busy, answer_get_undriven hdriven]
  simp [consumeLevel, outsideBit, hlevels, hb, hack, hseq]

/-- A list that samples nothing and then a window up to its GET, after a part l of the sequence. -/
theorem samples_append_sampling {s : State} {l m : List Action} {c d : PinId} {b : Level} {more : List Level} {log : BitVec 4}
    (h : Begun s) (hg : Granted (l ++ (m ++ sampling c d)) s)
    (hlen : s.seqIdx.toNat + (l.length + m.length + 4) ≤ (curSeq s).length) (hm : NoGet m)
    (hl : (performAll l s).levelScript = b :: more ∧ (performAll l s).ackLog = log) :
    (performAll (l ++ (m ++ sampling c d)) s).levelScript = more ∧
      (performAll (l ++ (m ++ sampling c d)) s).ackLog =
        ackAfter (BitVec.ofNat 8 (s.seqIdx.toNat + (l.length + m.length + 3))) (!b) log := by
  obtain ⟨hlevels, hack⟩ := hl
  rw [← List.append_assoc] at hg ⊢
  rw [performAll_append]
  have hdone := completed_of_granted h (by rw [List.length_append]; omega) hg.of_append
  obtain ⟨hbegun, hidx⟩ := hdone.begun (by rw [List.length_append]; omega)
  rw [List.length_append] at hidx
  have hm' := performAll_samples hm (performAll l s)
  rw [← performAll_append, hlevels, hack] at hm'
  obtain ⟨hlevels', hack'⟩ := hm'
  have hs := sampling_samples hbegun (by rw [hidx, hdone.curSeq_eq]; omega) (hg.of_completed hdone) hlevels'
  rwa [hidx, hack', add_assoc] at hs

/-! ### The parts of a byte -/

section
variable (c d : PinId) (x : Byte)

/-- A byte is its eight bits, the window up to the GET, and the rest of the window (R155, R159). -/
theorem sendByte_eq : sendByte c d x = shiftBits c d 8 x ++ (sampling c d ++ sampled c d) := by
  rw [sendByte_eq_flatMap, shiftBits_eq_flatMap, ackSeq_eq]

@[simp] theorem shiftBits_length (n : Nat) : (shiftBits c d n x).length = 6 * n := by
  rw [shiftBits_eq_flatMap]
  simp [Nat.mul_comm]

theorem noGet_shiftBits (n : Nat) : NoGet (shiftBits c d n x) := by
  induction n generalizing x with
  | zero => simp [NoGet, shiftBits]
  | succ n ih =>
    have hbit : NoGet (sendBit c d (x.getLsbD 0)) := by simp [NoGet, sendBit, settle, isGet]
    exact hbit.append (ih _)

theorem noGet_sampled : NoGet (sampled c d) := by simp [NoGet, sampled, settle, isGet]

@[simp] theorem countP_isSwitch_sendByte : (sendByte c d x).countP isSwitch = 2 := rfl

end

/-! ### A wire byte executed through its actions -/

theorem repeatExec_succ {i : Instr} {s t : State} (h : exec i s = .next t) (n : Nat) :
    repeatExec (n + 1) i s = repeatExec n i t := by
  simp only [repeatExec, h]

/-- Two executions of a wire byte's instruction in its place perform an action, the issue and the answer (log entry 10). -/
theorem repeatExec_perform {role : ByteRole} {pos : BitVec 3} {bm : Byte} {bri : BitVec 3} {s : State} {k : Nat} {a : Action}
    (hat : AtByte (byteStart role) k s) (ho : s.outstanding = none)
    (ha : (sendByte s.clkPin s.dioPin (wireByte role pos bm bri))[k]? = some a) (n : Nat) :
    repeatExec (n + 2) (byteInstrOf role pos bm bri) s = repeatExec n (byteInstrOf role pos bm bri) (perform s a) := by
  obtain ⟨a', ha', hissue⟩ := byteIssues role pos bm bri s k hat ho
  obtain rfl : a = a' := by simpa [ha] using ha'
  have hanswer : exec (byteInstrOf role pos bm bri) (issue a s) = .next (answer a (issue a s)) :=
    exec_byteInstrOf_answer (s := issue a s) hat rfl pos bm bri
  obtain ⟨hbusy, -⟩ := hat
  rw [repeatExec_succ (t := issue a s) hissue, repeatExec_succ hanswer, perform_of_busy hbusy]

/-- From offset k of a byte on, with its mode switches granted, the instruction performs the rest of the byte's actions. -/
theorem repeatExec_eq_performAll {role : ByteRole} {pos : BitVec 3} {bm : Byte} {bri : BitVec 3} {l : List Action} {k : Nat} {s : State}
    (hbusy : s.fsm = .busy) (hop : s.op = .write) (ho : s.outstanding = none) (hidx : s.seqIdx.toNat = byteStart role + k)
    (hl : (sendByte s.clkPin s.dioPin (wireByte role pos bm bri)).drop k = l) (hg : Granted l s) :
    repeatExec (2 * l.length) (byteInstrOf role pos bm bri) s = .next (performAll l s) := by
  induction l generalizing k s with
  | nil => rfl
  | cons a l ih =>
    have hlen := congrArg List.length hl
    have ha : (sendByte s.clkPin s.dioPin (wireByte role pos bm bri))[k]? = some a := by rw [← List.head?_drop, hl]; rfl
    have hrest : (sendByte s.clkPin s.dioPin (wireByte role pos bm bri)).drop (k + 1) = l := by rw [← List.tail_drop, hl]; rfl
    have hstart : byteStart role ≤ 189 := by cases role <;> decide
    have hseq : (curSeq s).length = 252 := by rw [curSeq_length, hop]
    simp only [List.length_drop, sendByte_length, List.length_cons] at hlen
    have hdone : Completed s [a] (perform s a) :=
      completed_of_granted ⟨hbusy, ho, by omega⟩ (by rw [hseq, List.length_singleton]; omega) (hg.of_append (l := [a]))
    obtain ⟨hbegun, hidx'⟩ := hdone.begun (by rw [hseq, List.length_singleton]; omega)
    rw [List.length_cons, Nat.mul_succ, repeatExec_perform ⟨hbusy, hop, by omega, hidx⟩ ho ha, performAll_cons]
    refine ih (k := k + 1) hbegun.busy (hdone.op.trans hop) hbegun.outstanding ?_ ?_ (hg.of_completed (l := [a]) hdone)
    · rw [hidx', hidx]; rfl
    · rw [hdone.clkPin, hdone.dioPin, hrest]

/-- A byte whose mode switches are granted logs the level of its window (R157). -/
theorem performAll_sendByte_ackLog {s : State} (h : Begun s) (hlen : s.seqIdx.toNat + 57 ≤ (curSeq s).length) {c d : PinId} {x : Byte}
    (hg : Granted (sendByte c d x) s) {b : Level} {more : List Level} (hb : s.levelScript = b :: more) :
    (performAll (sendByte c d x) s).ackLog = ackAfter (BitVec.ofNat 8 (s.seqIdx.toNat + 51)) (!b) s.ackLog := by
  have hsplit : sendByte c d x = ([] ++ (shiftBits c d 8 x ++ sampling c d)) ++ sampled c d := by
    rw [sendByte_eq, List.nil_append, List.append_assoc]
  rw [hsplit] at hg ⊢
  obtain ⟨-, hack⟩ := samples_append_sampling h hg.of_append (by simp; omega) (noGet_shiftBits c d x 8) ⟨hb, rfl⟩
  rw [performAll_append, (performAll_samples (noGet_sampled c d) _).2, hack]
  simp

/-- Each wire byte begun in its place with its mode switches granted sends its byte. -/
theorem byteSent (role : ByteRole) (pos : BitVec 3) (bm : Byte) (bri : BitVec 3) :
    ByteSent (byteInstrOf role pos bm bri) (byteStart role) (wireByte role pos bm bri) := by
  intro s rest ⟨hbusy, hop, _, hidx⟩ ho hscript
  have hstart : byteStart role ≤ 189 := by cases role <;> decide
  have hseq : (curSeq s).length = 252 := by rw [curSeq_length, hop]
  have hbegun : Begun s := ⟨hbusy, ho, by omega⟩
  have hg : Granted (sendByte s.clkPin s.dioPin (wireByte role pos bm bri)) s :=
    ⟨rest, by rw [countP_isSwitch_sendByte, hscript]; rfl⟩
  have hdone := completed_of_granted hbegun (by rw [hseq, sendByte_length]; omega) hg
  obtain ⟨hend, hidx'⟩ := hdone.begun (by rw [hseq, sendByte_length]; omega)
  rw [sendByte_length, hidx] at hidx'
  have hrun := repeatExec_eq_performAll hbusy hop ho hidx List.drop_zero hg
  rw [sendByte_length] at hrun
  refine ⟨_, hrun, hend.busy, hidx', hend.outstanding, hdone.faultCause, hdone.trace, hdone.wires, fun b more hb => ?_⟩
  have hack := performAll_sendByte_ackLog hbegun (by omega) hg hb
  rwa [hidx] at hack

/-- Settles O29: the four bytes are the four roles of `byteSent`. -/
theorem wireBytesSent : Obligations.WireBytesSent :=
  ⟨byteSent .dataCmd 0 0 0, fun pos => byteSent .addrCmd pos 0 0, fun bm => byteSent .data 0 bm 0,
    fun bri => byteSent .dispCtrl 0 0 bri⟩

end Sys2Proof.Machine
end

section
/-! PROOF. The family 40_host_commands: whole commands (R121 to R128, R151, R157, R163, R204, R205). An accepted command with nothing else
moving performs the running sequence, an action in two moves. -/

namespace Sys2Proof.Machine

/-! ### A run of the machine -/

/-- A quiet machine that is not in BUSY stays as it is. -/
theorem run_of_still {s : State} (q : Quiet s) (h : s.fsm ≠ .busy) (n : Nat) : Host.Core.run core n s = .next s := by
  obtain ⟨he, hh, -⟩ := nothingDue_of_quiet q
  have hstep : step s = .next s := by rw [step_engine he hh, elapse_of_quiet q, engineMove_of_still (.inl h)]
  induction n with
  | zero => rfl
  | succ n ih => rw [run_succ_of_step hstep, ih]

theorem quiet_perform {s : State} (q : Quiet s) (a : Action) : Quiet (perform s a) := by
  obtain ⟨hh, he, hhung⟩ := q
  unfold perform
  split
  · exact ⟨by simp [hh], by simp [he], by simp [hhung]⟩
  · exact ⟨hh, he, hhung⟩

/-- Two moves of a quiet machine perform the action at SEQ_IDX (R121). -/
theorem run_perform {s : State} {a : Action} (q : Quiet s) (hb : s.fsm = .busy) (ho : s.outstanding = none)
    (ha : (curSeq s)[s.seqIdx.toNat]? = some a) (n : Nat) :
    Host.Core.run core (n + 2) s = Host.Core.run core n (perform s a) := by
  obtain ⟨he, hh, hhung⟩ := nothingDue_of_quiet q
  have hissue : step s = .next (issue a s) := by
    have := step_issue he hh hb hhung ho ha
    rwa [elapse_of_quiet q] at this
  have q' : Quiet (issue a s) := q
  have hanswer : step (issue a s) = .next (answer a (issue a s)) := by
    have := step_answer (s := issue a s) he hh hb hhung rfl
    rwa [elapse_of_quiet q'] at this
  rw [run_succ_of_step hissue, run_succ_of_step hanswer, perform_of_busy hb]

/-- A quiet machine performs the actions that stand before it in the running sequence, and stays in FAULT when one of them fails. -/
theorem run_eq_performAll {l : List Action} {s : State} (q : Quiet s) (ho : s.outstanding = none)
    (hl : s.fsm = .busy → l <+: (curSeq s).drop s.seqIdx.toNat) :
    Host.Core.run core (2 * l.length) s = .next (performAll l s) := by
  induction l generalizing s with
  | nil => rfl
  | cons a l ih =>
    by_cases hb : s.fsm = .busy
    · obtain ⟨rest, hrest⟩ := hl hb
      have ha : (curSeq s)[s.seqIdx.toNat]? = some a := by rw [← List.head?_drop, ← hrest]; rfl
      rw [List.length_cons, Nat.mul_succ, run_perform q hb ho ha, performAll_cons]
      refine ih (quiet_perform q a) (performed_outstanding ho a) fun hb' => ⟨rest, ?_⟩
      have hidx : (perform s a).seqIdx.toNat = s.seqIdx.toNat + 1 := by
        rw [perform_of_busy hb] at hb' ⊢
        rw [answer_seqIdx_of_busy hb', issue_seqIdx, seqIdx_succ_toNat (List.getElem?_eq_some_iff.1 ha).1]
      rw [hidx, (sameOperands_perform s a).curSeq_eq, ← List.tail_drop, ← hrest]
      rfl
    · rw [run_of_still q hb, performAll_of_ne_busy hb]

/-- An accepted command run to its end performs its whole sequence: all of it, or up to an action that fails. -/
theorem run_whole {s : State} (q : Quiet s) (hb : s.fsm = .busy) (h0 : s.seqIdx = 0) (ho : s.outstanding = none) :
    Host.Core.run core (2 * (curSeq s).length) s = .next (performAll (curSeq s) s) ∧
      (Completed s (curSeq s) (performAll (curSeq s) s) ∨ ∃ k, Failed s (curSeq s) k (performAll (curSeq s) s)) := by
  have hidx : s.seqIdx.toNat = 0 := by rw [h0]; rfl
  have hbegun : Begun s := ⟨hb, ho, by rw [hidx, curSeq_length]; cases s.op <;> decide⟩
  refine ⟨run_eq_performAll q ho fun _ => ?_, performAll_cases hbegun (by rw [hidx, Nat.zero_add])⟩
  rw [hidx, List.drop_zero]

/-- Settles O57: INIT_SEQ is performed to its end, or one of its two mode switches fails. -/
theorem initRun : Obligations.InitRun := by
  intro s q hb hop h0 ho hcd
  have hseq : curSeq s = initSeq s.clkPin s.dioPin := by rw [curSeq, hop]
  have hidx : s.seqIdx.toNat = 0 := by rw [h0]; rfl
  obtain ⟨hrun, hcases⟩ := run_whole q hb h0 ho
  rw [hseq] at hrun hcases
  rw [initSeq_length] at hrun
  generalize performAll (initSeq s.clkPin s.dioPin) s = t at hrun hcases
  refine ⟨_, hrun, ?_⟩
  rcases hcases with hdone | ⟨k, hfailed⟩
  · have hend : s.seqIdx.toNat + (initSeq s.clkPin s.dioPin).length = (curSeq s).length := by rw [hidx, hseq, Nat.zero_add]
    obtain ⟨hidle, hzero⟩ := hdone.idle hend
    refine ⟨hdone.clkPin, hdone.dioPin, hdone.brightness, hdone.outstanding,
      .inl ⟨hidle, hzero, hdone.faultCause, hdone.trace, ?_⟩, fun _ _ => hidle⟩
    rw [hdone.wires hcd, wiresAfter_initSeq hcd]
  · have hk := (switchAt_initSeq _ _ k).1 hfailed.switchAt
    have hkidx := hfailed.seqIdx
    rw [hidx, Nat.zero_add] at hkidx
    refine ⟨hfailed.clkPin, hfailed.dioPin, hfailed.brightness, hfailed.outstanding,
      .inr ⟨hfailed.fsm, by rw [hfailed.faultCause, hop]; rfl, by omega, fun hone => ?_, by rw [hkidx]; exact hfailed.trace⟩, ?_⟩
    · obtain rfl : k = 1 := by rw [← hkidx, hone]; rfl
      calc dirOf s.clkPin t = (wiresOf t).clkDir := by rw [wiresOf, hfailed.clkPin]
        _ = .out := by rw [hfailed.wires hcd]; simp [initSeq, wireStep]
    · exact fun rest hscript => absurd ⟨rest, hscript.symm⟩ hfailed.not_granted

/-! ### The samples of a segment write -/

section
variable (c d : PinId)

theorem noGet_startSeq : NoGet (startSeq d) := by simp [NoGet, startSeq, settle, isGet]

theorem noGet_stopSeq : NoGet (stopSeq c d) := by simp [NoGet, stopSeq, settle, isGet]

/-- What a transaction sends between the GET of the byte before it, which ends another transaction, and that of its own first byte x. -/
def nextTransaction (x : Byte) : List Action := sampled c d ++ (stopSeq c d ++ (startSeq d ++ shiftBits c d 8 x))

theorem noGet_nextTransaction (x : Byte) : NoGet (nextTransaction c d x) :=
  (noGet_sampled c d).append ((noGet_stopSeq c d).append ((noGet_startSeq d).append (noGet_shiftBits c d x 8)))

@[simp] theorem nextTransaction_length (x : Byte) : (nextTransaction c d x).length = 61 := by
  simp [nextTransaction, sampled]

/-- A segment write cut behind each of its four GETs (R163). -/
theorem writeSeq_eq_samplings (pos : BitVec 3) (bm : Byte) (bri : BitVec 3) :
    writeSeq c d pos bm bri =
      [] ++ ((startSeq d ++ shiftBits c d 8 0x44) ++ sampling c d) ++ (nextTransaction c d (addrByte pos) ++ sampling c d) ++
        ((sampled c d ++ shiftBits c d 8 bm) ++ sampling c d) ++ (nextTransaction c d (ctrlByte bri) ++ sampling c d) ++
        (sampled c d ++ stopSeq c d) := by
  simp only [writeSeq, t1, t2, t3, nextTransaction, sendByte_eq, List.nil_append, List.append_assoc]

end

/-- A segment write whose mode switches are granted logs the four levels of its windows (R157, R163). -/
theorem performAll_writeSeq_ackLog {s : State} (h : Begun s) (h0 : s.seqIdx.toNat = 0) (hop : s.op = .write) {c d : PinId}
    {pos : BitVec 3} {bm : Byte} {bri : BitVec 3} (hg : Granted (writeSeq c d pos bm bri) s) {b0 b1 b2 b3 : Level} {more : List Level}
    (hb : s.levelScript = b0 :: b1 :: b2 :: b3 :: more) :
    (performAll (writeSeq c d pos bm bri) s).ackLog =
      ackAfter 240 (!b3) (ackAfter 175 (!b2) (ackAfter 118 (!b1) (ackAfter 53 (!b0) s.ackLog))) := by
  have hseq : (curSeq s).length = 252 := by rw [curSeq_length, hop]
  rw [writeSeq_eq_samplings] at hg ⊢
  have hg3 := hg.of_append
  have hg2 := hg3.of_append
  have hg1 := hg2.of_append
  have h1 := samples_append_sampling h hg1.of_append (by simp [h0, hseq])
    ((noGet_startSeq d).append (noGet_shiftBits c d 0x44 8)) ⟨hb, rfl⟩
  have h2 := samples_append_sampling h hg1 (by simp [h0, hseq, sampling]) (noGet_nextTransaction c d _) h1
  have h3 := samples_append_sampling h hg2 (by simp [h0, hseq, sampling, sampled])
    ((noGet_sampled c d).append (noGet_shiftBits c d bm 8)) h2
  obtain ⟨-, h4⟩ := samples_append_sampling h hg3 (by simp [h0, hseq, sampling, sampled]) (noGet_nextTransaction c d _) h3
  rw [performAll_append, (performAll_samples ((noGet_sampled c d).append (noGet_stopSeq c d)) _).2, h4]
  simp [h0, sampling, sampled]

/-- Four samples make the whole of ACK_LOG, whatever it held (R157). -/
theorem ackLog_of_samples : ∀ (v0 v1 v2 v3 : Bool) (log : BitVec 4),
    ackAfter 240 v3 (ackAfter 175 v2 (ackAfter 118 v1 (ackAfter 53 v0 log))) =
      BitVec.ofBool v3 ++ BitVec.ofBool v2 ++ BitVec.ofBool v1 ++ BitVec.ofBool v0 := by decide

theorem countP_isSwitch_writeSeq (c d : PinId) (pos : BitVec 3) (bm : Byte) (bri : BitVec 3) :
    (writeSeq c d pos bm bri).countP isSwitch = 8 := by
  have hstart : (startSeq d).countP isSwitch = 0 := rfl
  have hstop : (stopSeq c d).countP isSwitch = 0 := rfl
  simp [writeSeq, t1, t2, t3, hstart, hstop]

/-- Settles O58: WRITE_SEQ is performed to its end, or one of its eight mode switches fails. -/
theorem segmentWriteRun : Obligations.SegmentWriteRun := by
  intro s q hb hop h0 ho
  have hseq : curSeq s = writeSeq s.clkPin s.dioPin s.position s.bitmap s.brightness := by rw [curSeq, hop]
  have hidx : s.seqIdx.toNat = 0 := by rw [h0]; rfl
  have hgranted : ∀ rest, s.cfgScript = List.replicate 8 .ok ++ rest →
      Granted (writeSeq s.clkPin s.dioPin s.position s.bitmap s.brightness) s := by
    intro rest hscript
    exact ⟨rest, by rw [countP_isSwitch_writeSeq, hscript]⟩
  have hack : ∀ rest b0 b1 b2 b3 more, s.cfgScript = List.replicate 8 .ok ++ rest → s.levelScript = b0 :: b1 :: b2 :: b3 :: more →
      (performAll (writeSeq s.clkPin s.dioPin s.position s.bitmap s.brightness) s).ackLog =
        BitVec.ofBool (!b3) ++ BitVec.ofBool (!b2) ++ BitVec.ofBool (!b1) ++ BitVec.ofBool (!b0) := by
    intro rest b0 b1 b2 b3 more hscript hlevels
    have hbegun : Begun s := ⟨hb, ho, by rw [hidx, hseq, writeSeq_length]; decide⟩
    rw [performAll_writeSeq_ackLog hbegun hidx hop (hgranted rest hscript) hlevels, ackLog_of_samples]
  obtain ⟨hrun, hcases⟩ := run_whole q hb h0 ho
  rw [hseq] at hrun hcases
  rw [writeSeq_length] at hrun
  generalize performAll (writeSeq s.clkPin s.dioPin s.position s.bitmap s.brightness) s = t at hrun hcases hack
  refine ⟨t, hrun, ?_⟩
  rcases hcases with hdone | ⟨k, hfailed⟩
  · have hend : s.seqIdx.toNat + (writeSeq s.clkPin s.dioPin s.position s.bitmap s.brightness).length = (curSeq s).length := by
      rw [hidx, hseq, Nat.zero_add]
    obtain ⟨hidle, hzero⟩ := hdone.idle hend
    exact ⟨hdone.brightness, hdone.position, hdone.bitmap, hdone.outstanding,
      .inl ⟨hidle, hzero, hdone.faultCause, hdone.trace⟩, fun _ _ => hidle, hack⟩
  · have hkidx := hfailed.seqIdx
    rw [hidx, Nat.zero_add] at hkidx
    refine ⟨hfailed.brightness, hfailed.position, hfailed.bitmap, hfailed.outstanding,
      .inr ⟨hfailed.fsm, by rw [hfailed.faultCause, hop]; rfl, ?_, by rw [hkidx]; exact hfailed.trace⟩,
      fun rest hscript => absurd (hgranted rest hscript) hfailed.not_granted, hack⟩
    rw [hkidx]
    exact mem_modeSwitches_of_switchAt _ _ hfailed.switchAt

/-- A segment write emits a beginning of its sequence, and the whole of it if it completes. -/
theorem run_emits_prefix {s : State} (q : Quiet s) (hb : s.fsm = .busy) (hop : s.op = .write) (h0 : s.seqIdx = 0)
    (ho : s.outstanding = none) :
    ∃ t, Host.Core.run core 504 s = .next t ∧ t.trace <+: s.trace ++ curSeq s ∧
      (t.fsm = .idle → t.trace = s.trace ++ curSeq s) := by
  obtain ⟨hrun, hcases⟩ := run_whole q hb h0 ho
  have hlen : (curSeq s).length = 252 := by rw [curSeq_length, hop]
  rw [hlen] at hrun
  refine ⟨_, hrun, ?_⟩
  rcases hcases with hdone | ⟨k, hfailed⟩
  · exact ⟨hdone.trace ▸ List.prefix_rfl, fun _ => hdone.trace⟩
  · refine ⟨?_, fun hidle => by simp [hfailed.fsm] at hidle⟩
    rw [hfailed.trace, List.prefix_append_right_inj]
    exact List.take_prefix _ _

/-- Settles O59: either run emits a beginning of the one sequence that both run, and one that completes all of it. -/
theorem segmentWriteDeterministic : Obligations.SegmentWriteDeterministic := by
  intro s s' q hb hop h0 ho q' hb' hop' h0' ho' hc hd hpos hbm hbri htrace
  obtain ⟨t, hrun, hpre, hall⟩ := run_emits_prefix q hb hop h0 ho
  obtain ⟨t', hrun', hpre', hall'⟩ := run_emits_prefix q' hb' hop' h0' ho'
  rw [htrace, curSeq_congr (hop'.trans hop.symm) hc hd hpos hbm hbri] at hpre' hall'
  exact ⟨t, t', hrun, hrun', List.prefix_or_prefix_of_prefix hpre hpre',
    fun hidle hidle' => (hall' hidle').trans (hall hidle).symm⟩

end Sys2Proof.Machine
end

section
/-! PROOF. The family 41_bus_sequencer: the index map of a segment write (R163), and the direction of DIO along it (R155, R156). -/

namespace Sys2Proof.Machine

/-! ### The parts of a segment write -/

section
variable (c d : PinId) (pos : BitVec 3) (bm x : Byte) (bri : BitVec 3)

/-- The part of a segment write from a byte's start on is that byte's `SEND_BYTE`, whole (R163). -/
theorem writeSeq_byte (role : ByteRole) :
    ((writeSeq c d pos bm bri).drop (byteStart role)).take 57 = sendByte c d (wireByte role pos bm bri) := by
  apply List.ext_getElem?
  intro i
  by_cases hi : i < 57
  · have hrole : roleAt (byteStart role + i) = some role := (roleAt_eq_some_iff _ _).2 ⟨by omega, by omega⟩
    rw [List.getElem?_take_of_lt hi, List.getElem?_drop, writeSeq_getElem?_of_roleAt c d pos bm bri hrole,
      Nat.add_sub_cancel_left]
  · rw [List.getElem?_eq_none (by simp; omega), List.getElem?_eq_none (by simp; omega)]

/-- The last nine actions of a byte are its acknowledge window (R159). -/
theorem writeSeq_window (role : ByteRole) :
    ((writeSeq c d pos bm bri).drop (byteStart role + 48)).take 9 = ackSeq c d := by
  calc ((writeSeq c d pos bm bri).drop (byteStart role + 48)).take 9
      = (((writeSeq c d pos bm bri).drop (byteStart role)).take 57).drop 48 := by rw [List.drop_take, List.drop_drop]
    _ = ackSeq c d := by rw [writeSeq_byte]; rfl

/-- Bit i of a byte is driven at offset 6i + 2 from the byte's start (R163). -/
theorem writeSeq_getElem?_bit (role : ByteRole) {i : Nat} (hi : i < 8) :
    (writeSeq c d pos bm bri)[byteStart role + 6 * i + 2]? = some (.set d ((wireByte role pos bm bri).getLsbD i)) := by
  have hrole : roleAt (byteStart role + 6 * i + 2) = some role := (roleAt_eq_some_iff _ _).2 ⟨by omega, by omega⟩
  rw [writeSeq_getElem?_of_roleAt c d pos bm bri hrole, show byteStart role + 6 * i + 2 - byteStart role = 6 * i + 2 by omega,
    sendByte_getElem?_bit c d _ hi (by decide)]
  rfl

/-- A part of a list with the part before it, whose length is where it begins. -/
theorem take_drop_of_eq_append {l pre mid post : List Action} {first : Nat} (h : l = pre ++ (mid ++ post))
    (hfirst : pre.length = first) : (l.drop first).take mid.length = mid := by
  rw [h, List.drop_left' hfirst, List.take_left]

/-- Each transaction begins with a START (R163). -/
theorem writeSeq_starts :
    (writeSeq c d pos bm bri).take 2 = startSeq d ∧ ((writeSeq c d pos bm bri).drop 65).take 2 = startSeq d ∧
      ((writeSeq c d pos bm bri).drop 187).take 2 = startSeq d := by
  refine ⟨?_, ?_, ?_⟩
  · exact take_drop_of_eq_append (pre := []) (mid := startSeq d) (List.append_assoc _ _ _) rfl
  · exact take_drop_of_eq_append (pre := t1 c d) (mid := startSeq d) (by rw [writeSeq, t2, List.append_assoc]) (by simp)
  · exact take_drop_of_eq_append (pre := t1 c d ++ t2 c d pos bm) (mid := startSeq d)
      (by rw [writeSeq, t3, List.append_assoc]) (by simp)

/-- Each transaction ends with a STOP (R163). -/
theorem writeSeq_stops :
    ((writeSeq c d pos bm bri).drop 59).take 6 = stopSeq c d ∧ ((writeSeq c d pos bm bri).drop 181).take 6 = stopSeq c d ∧
      ((writeSeq c d pos bm bri).drop 246).take 6 = stopSeq c d := by
  refine ⟨?_, ?_, ?_⟩
  · exact take_drop_of_eq_append (pre := startSeq d ++ sendByte c d 0x44) (mid := stopSeq c d)
      (post := t2 c d pos bm ++ t3 c d bri) (by simp only [writeSeq, t1, List.append_assoc]) (by simp)
  · exact take_drop_of_eq_append (pre := t1 c d ++ (startSeq d ++ (sendByte c d (addrByte pos) ++ sendByte c d bm)))
      (mid := stopSeq c d) (post := t3 c d bri) (by simp only [writeSeq, t2, List.append_assoc]) (by simp)
  · exact take_drop_of_eq_append (pre := t1 c d ++ (t2 c d pos bm ++ (startSeq d ++ sendByte c d (ctrlByte bri))))
      (mid := stopSeq c d) (post := []) (by simp only [writeSeq, t3, List.append_assoc, List.append_nil]) (by simp)

/-! ### The GETs of a segment write -/

/-- The list has a GET at index i. -/
def GetAt (l : List Action) (i : Nat) : Prop := ∃ p, l[i]? = some (.get p)

theorem NoGet.not_getAt {l : List Action} (h : NoGet l) (i : Nat) : ¬ GetAt l i := by
  rintro ⟨p, hp⟩
  simpa [isGet] using h _ (List.mem_of_getElem? hp)

theorem getAt_append (l m : List Action) (i : Nat) :
    GetAt (l ++ m) i ↔ GetAt l i ∨ (l.length ≤ i ∧ GetAt m (i - l.length)) := by
  by_cases hi : i < l.length
  · simp [GetAt, List.getElem?_append_left hi, hi.not_ge]
  · simp [GetAt, List.getElem?_append_right (not_lt.1 hi), not_lt.1 hi]

/-- A window samples DIO at its fourth action (R155). -/
theorem getAt_sampling (i : Nat) : GetAt (sampling c d) i ↔ i = 3 := by
  constructor
  · rintro ⟨p, hp⟩
    have hi : i < 4 := (List.getElem?_eq_some_iff.1 hp).1
    interval_cases i <;> simp_all [sampling, settle]
  · rintro rfl
    exact ⟨d, rfl⟩

/-- A byte's one GET is its window's (R159). -/
theorem getAt_sendByte (i : Nat) : GetAt (sendByte c d x) i ↔ i = 51 := by
  simp only [sendByte_eq, getAt_append, (noGet_shiftBits c d x 8).not_getAt, getAt_sampling, (noGet_sampled c d).not_getAt,
    shiftBits_length, and_false, false_or, or_false]
  omega

/-- A segment write's four GETs are those of its bytes (R157, R163). -/
theorem getAt_writeSeq (i : Nat) : GetAt (writeSeq c d pos bm bri) i ↔ i = 53 ∨ i = 118 ∨ i = 175 ∨ i = 240 := by
  simp only [writeSeq, t1, t2, t3, getAt_append, (noGet_startSeq d).not_getAt, getAt_sendByte, (noGet_stopSeq c d).not_getAt,
    List.length_append, startSeq_length, sendByte_length, stopSeq_length, and_false, false_or, or_false]
  omega

/-! ### The counts of a segment write -/

/-- How many actions of each kind a list has: DELAY, GET, CFG_IN, CFG_OUT and SET, as R163 lists them. -/
def kindCounts (l : List Action) : List Nat := [isDelay, isGet, isCfgIn, isCfgOut, isSet].map fun p => l.countP p

theorem kindCounts_append (l m : List Action) : kindCounts (l ++ m) = List.zipWith (· + ·) (kindCounts l) (kindCounts m) := by
  simp [kindCounts]

theorem kindCounts_startSeq : kindCounts (startSeq d) = [1, 0, 0, 0, 1] := rfl

theorem kindCounts_stopSeq : kindCounts (stopSeq c d) = [3, 0, 0, 0, 3] := rfl

theorem kindCounts_sendBit (b : Level) : kindCounts (sendBit c d b) = [3, 0, 0, 0, 3] := rfl

theorem kindCounts_ackSeq : kindCounts (ackSeq c d) = [3, 1, 1, 1, 3] := rfl

/-- Eight bits and the window (R159). -/
theorem kindCounts_sendByte : kindCounts (sendByte c d x) = [27, 1, 1, 1, 27] := by
  simp only [sendByte, kindCounts_append, kindCounts_sendBit, kindCounts_ackSeq]
  rfl

/-- Three STARTs, three STOPs and four bytes (R163). -/
theorem kindCounts_writeSeq : kindCounts (writeSeq c d pos bm bri) = [120, 4, 4, 4, 120] := by
  simp only [writeSeq, t1, t2, t3, kindCounts_append, kindCounts_startSeq, kindCounts_sendByte, kindCounts_stopSeq]
  rfl

end

/-- Settles O15: each part of the index map is one of `writeSeq_starts`, `writeSeq_byte`, `writeSeq_window` and `writeSeq_stops`. -/
theorem writeSeqIndexMap : Obligations.WriteSeqIndexMap := by
  intro c d pos bm bri
  obtain ⟨hstart1, hstart2, hstart3⟩ := writeSeq_starts c d pos bm bri
  obtain ⟨hstop1, hstop2, hstop3⟩ := writeSeq_stops c d pos bm bri
  have hbyte := writeSeq_byte c d pos bm bri
  have hwindow := writeSeq_window c d pos bm bri
  have hbit := writeSeq_getElem?_bit c d pos bm bri
  exact ⟨(List.append_assoc _ _ _).symm, writeSeq_length c d pos bm bri,
    hstart1, hbyte .dataCmd, hwindow .dataCmd, hstop1,
    hstart2, hbyte .addrCmd, hwindow .addrCmd, hbyte .data, hwindow .data, hstop2,
    hstart3, hbyte .dispCtrl, hwindow .dispCtrl, hstop3,
    getAt_writeSeq c d pos bm bri,
    fun i hi => ⟨hbit .dataCmd hi, hbit .addrCmd hi, hbit .data hi, hbit .dispCtrl hi⟩,
    kindCounts_writeSeq c d pos bm bri, fun s hop => by rw [curSeq, hop]⟩

/-! ### The direction of DIO along a segment write -/

section
variable {c d : PinId} {w : Wires} {l : List Action} {i n : Nat}

/-- Only a mode switch writes a direction (R33). -/
theorem wireStep_dioDir {a : Action} (ha : isSwitch a = false) (c d : PinId) (w : Wires) : (wireStep c d w a).dioDir = w.dioDir := by
  cases a with
  | cfgOut p => simp [isSwitch, isCfgOut] at ha
  | cfgIn p => simp [isSwitch, isCfgIn] at ha
  | set p v => simp only [wireStep]; split_ifs <;> rfl
  | get p => rfl
  | delay k => rfl

theorem wiresAfter_take_succ {a : Action} (ha : l[i]? = some a) :
    wiresAfter c d w (l.take (i + 1)) = wireStep c d (wiresAfter c d w (l.take i)) a := by
  rw [List.take_add_one, ha, wiresAfter_append]
  rfl

/-- DIO keeps its direction over a stretch without a mode switch. -/
theorem dioDir_take_of_no_switch (hin : i ≤ n) (h : ∀ k, i ≤ k → k < n → ¬ SwitchAt l k) :
    (wiresAfter c d w (l.take n)).dioDir = (wiresAfter c d w (l.take i)).dioDir := by
  induction n, hin using Nat.le_induction with
  | base => rfl
  | succ n hin ih =>
    rw [← ih fun k hik hkn => h k hik (by omega)]
    cases ha : l[n]? with
    | none => rw [List.take_add_one, ha]; simp
    | some a =>
      have hsw : isSwitch a = false := by
        by_contra hsw
        exact h n hin (by omega) ⟨a, ha, by simpa using hsw⟩
      rw [wiresAfter_take_succ ha, wireStep_dioDir hsw]

end

section
variable {c d : PinId} {w : Wires} (pos : BitVec 3) (bm : Byte) (bri : BitVec 3) (role : ByteRole) {i m n : Nat}

/-- DIO keeps its direction from index i to index m if none of the eight mode switches is between them. -/
theorem writeSeq_dioDir_take (hin : i ≤ n) (hnm : n ≤ m) (h : ∀ k ∈ modeSwitches, i ≤ k → m ≤ k) :
    (wiresAfter c d w ((writeSeq c d pos bm bri).take n)).dioDir =
      (wiresAfter c d w ((writeSeq c d pos bm bri).take i)).dioDir := by
  refine dioDir_take_of_no_switch hin fun k hik hkn hsw => ?_
  have := h k (mem_modeSwitches_of_switchAt c d hsw) hik
  omega

theorem writeSeq_getElem?_window {r : Nat} (hr : r < 9) :
    (writeSeq c d pos bm bri)[byteStart role + 48 + r]? = (ackSeq c d)[r]? := by
  rw [← writeSeq_window c d pos bm bri role, List.getElem?_take_of_lt hr, List.getElem?_drop]

/-- The mode switch behind a window's CFG_IN is the window's CFG_OUT (R155). -/
theorem cfgOut_next_modeSwitch : ∀ k ∈ modeSwitches, byteStart role + 49 ≤ k → byteStart role + 56 ≤ k := by
  cases role <;> decide

/-- A window's CFG_IN makes DIO an input until its CFG_OUT (R156). -/
theorem writeSeq_dioDir_in_window (hcd : c ≠ d) (hlo : byteStart role + 49 ≤ n) (hhi : n ≤ byteStart role + 56) :
    (wiresAfter c d w ((writeSeq c d pos bm bri).take n)).dioDir = .input := by
  have hin : (writeSeq c d pos bm bri)[byteStart role + 48]? = some (.cfgIn d) :=
    writeSeq_getElem?_window pos bm bri role (r := 0) (by decide)
  rw [writeSeq_dioDir_take pos bm bri hlo hhi (cfgOut_next_modeSwitch role), wiresAfter_take_succ hin]
  simp [wireStep, hcd.symm]

/-- A window's CFG_OUT makes DIO an output up to any index m before which there is no further mode switch (R156). -/
theorem writeSeq_dioDir_after_window (hcd : c ≠ d) (hlo : byteStart role + 57 ≤ n) (hhi : n ≤ m)
    (hm : ∀ k ∈ modeSwitches, byteStart role + 57 ≤ k → m ≤ k) :
    (wiresAfter c d w ((writeSeq c d pos bm bri).take n)).dioDir = .out := by
  have hout : (writeSeq c d pos bm bri)[byteStart role + 56]? = some (.cfgOut d) :=
    writeSeq_getElem?_window pos bm bri role (r := 8) (by decide)
  rw [writeSeq_dioDir_take pos bm bri hlo hhi hm, wiresAfter_take_succ hout]
  simp [wireStep, hcd.symm]

end

/-- Settles O19: the last mode switch before index n says the direction of DIO; before the first it is that of the idle wires. -/
theorem dioReleasedInWindows : Obligations.DioReleasedInWindows := by
  intro c d pos bm bri n hcd hn
  split_ifs with h
  · rcases h with ⟨hlo, hhi⟩ | ⟨hlo, hhi⟩ | ⟨hlo, hhi⟩ | ⟨hlo, hhi⟩
    · exact writeSeq_dioDir_in_window pos bm bri .dataCmd hcd hlo hhi
    · exact writeSeq_dioDir_in_window pos bm bri .addrCmd hcd hlo hhi
    · exact writeSeq_dioDir_in_window pos bm bri .data hcd hlo hhi
    · exact writeSeq_dioDir_in_window pos bm bri .dispCtrl hcd hlo hhi
  · have hcases : n ≤ 50 ∨ (59 ≤ n ∧ n ≤ 115) ∨ (124 ≤ n ∧ n ≤ 172) ∨ (181 ≤ n ∧ n ≤ 237) ∨ 246 ≤ n := by omega
    rcases hcases with hhi | ⟨hlo, hhi⟩ | ⟨hlo, hhi⟩ | ⟨hlo, hhi⟩ | hlo
    · exact writeSeq_dioDir_take pos bm bri (Nat.zero_le n) hhi (by decide)
    · exact writeSeq_dioDir_after_window pos bm bri .dataCmd hcd hlo hhi (by decide)
    · exact writeSeq_dioDir_after_window pos bm bri .addrCmd hcd hlo hhi (by decide)
    · exact writeSeq_dioDir_after_window pos bm bri .data hcd hlo hhi (by decide)
    · exact writeSeq_dioDir_after_window pos bm bri .dispCtrl hcd hlo hn (by decide)

end Sys2Proof.Machine
end

section
/-! PROOF. The family 42_encoder_rom: the dot (R183) and the encoder's port (R184). -/

namespace Sys2Proof.Machine

/-! ### The dot (R183) -/

/-- A flag that is not set puts no bit anywhere. -/
theorem applyDot_false (bm : Byte) : applyDot bm false = bm := by
  simp [applyDot]

/-- Settles O13: bit by bit, from what `applyDot` does to bit 7 and to the bits below it. -/
theorem applyDotBits : Obligations.ApplyDotBits := fun bm flag =>
  ⟨rfl, applyDot_getLsbD_seven bm flag, applyDot_false bm, fun _ hk => applyDot_getLsbD_of_lt bm flag hk⟩

/-! ### The encoder's port (R184) -/

theorem exec_encode (dot : Bool) (idx : Byte) (s : State) : exec (.encode dot idx) s = .next (driveEncoder dot idx s) := rfl

/-- ENC_OUT reads the port's two inputs and nothing else of the state. -/
theorem encOut_eq_of_sameEncoder {s t : State} (h : SameEncoder s t) : encOut t = encOut s := by
  obtain ⟨hidx, hdot⟩ := h
  rw [encOut, encOut, hidx, hdot]

theorem sameEncoder_engineReset (s : State) : SameEncoder s (engineReset s) := ⟨engineReset_encIdx s, engineReset_encDot s⟩

theorem encOut_driveEncoder (dot : Bool) (idx : Byte) (s : State) :
    encOut (driveEncoder dot idx s) = encodeGlyph hw dot idx := rfl

/-- Settles O11: what is driven into the port is all that ENC_OUT reads, and O12 gives the bits of a legal ROM's glyph. -/
theorem encodeResult : Obligations.EncodeResult := by
  intro s dot idx
  obtain ⟨-, -, -, hlegal⟩ := romContents
  obtain ⟨-, -, -, -, hglyph⟩ := hlegal hw hw_legal
  obtain ⟨hseven, hlow⟩ := hglyph dot idx
  refine ⟨driveEncoder dot idx s, exec_encode dot idx s, rfl, ?_, ?_, ?_,
    encOut_eq_of_sameEncoder (sameEncoder_engineReset _), fun f => encOut_eq_of_sameEncoder ⟨rfl, rfl⟩⟩
  · obtain ⟨hdot, -⟩ := applyDotBits (rom hw idx) dot
    exact hdot
  · rw [encOut_driveEncoder, hseven]
  · rw [encOut_driveEncoder]
    exact hlow

end Sys2Proof.Machine
end

section
/-! PROOF. The family 60_exceptions: the causes of acceptance (R201, R202, R209), FAULT and the way out of it (R207, R211), and the
failed mode switches of the sequencer (R204, R205). -/

namespace Sys2Proof.Machine

/-! ### A word written to CMD -/

theorem writeReg_zero (w : Word) (s : State) : writeReg 0 w s = writeCmd w s := if_pos rfl

/-- f, as an accepted command does, leaves the cause and its information and does not fault (R123, R124, R126). -/
def KeepsFault (f : State → State) : Prop :=
  ∀ s : State, s.fsm ≠ .fault → (f s).fsm ≠ .fault ∧ (f s).faultCause = s.faultCause ∧ (f s).faultInfo = s.faultInfo

theorem keepsFault_performInit (c d : PinId) : KeepsFault (performInit c d) := fun _ _ => ⟨by simp, rfl, rfl⟩

theorem keepsFault_performSetBrightness (l : Byte) : KeepsFault (performSetBrightness l) := fun _ hf => ⟨hf, rfl, rfl⟩

theorem keepsFault_performWriteSegmentRaw (p b : Byte) : KeepsFault (performWriteSegmentRaw p b) :=
  fun _ _ => ⟨by simp, rfl, rfl⟩

/-- Every CMD write, of a legal word or an illegal one, is `accept` of its own word (R120). -/
theorem writeCmd_eq_accept (w : Word) : ∃ f, KeepsFault f ∧ ∀ s, writeCmd w s = accept w f s := by
  simp only [writeCmd, decode]
  rcases hd : decodeCmd w with e | i
  · exact ⟨id, fun _ hf => ⟨hf, rfl, rfl⟩, fun _ => rfl⟩
  · obtain ⟨rfl, ⟨c, d, rfl⟩ | ⟨l, rfl⟩ | ⟨p, b, rfl⟩⟩ := decodeCmd_ok hd
    · exact ⟨_, keepsFault_performInit c d, fun _ => rfl⟩
    · exact ⟨_, keepsFault_performSetBrightness l, fun _ => rfl⟩
    · exact ⟨_, keepsFault_performWriteSegmentRaw p b, fun _ => rfl⟩

section
variable {s : State} (hready : s.fsm = .uninit ∨ s.fsm = .idle) {w : Word}
include hready

/-- A word in which `Check` finds a cause raises that fault with the word as its information, and changes nothing else (R202). -/
theorem writeCmd_of_cause {c : FaultCause} (hcheck : check hw s.fsm w = c) (hc : c ≠ .noFault) :
    writeCmd w s = .next (raiseFault c w s) := by
  subst hcheck
  obtain ⟨f, -, hf⟩ := writeCmd_eq_accept w
  rw [hf, accept_of_ready hready, checked, if_neg hc]

/-- A word in which `Check` finds no cause is performed without a fault. -/
theorem writeCmd_of_noFault (hcheck : check hw s.fsm w = .noFault) :
    ∃ t, writeCmd w s = .next t ∧ t.fsm ≠ .fault ∧ t.faultCause = s.faultCause ∧ t.faultInfo = s.faultInfo := by
  obtain ⟨f, hkeeps, hf⟩ := writeCmd_eq_accept w
  refine ⟨f s, ?_, hkeeps s (ne_fault_of_ready hready)⟩
  rw [hf, accept_of_ready hready, checked, if_pos hcheck]

end

/-- Settles O4: the statement's tests are those of `Check`, in its order. -/
theorem checksInOrder : Obligations.ChecksInOrder := by
  intro w s
  rw [writeReg_zero]
  refine ⟨fun h => writeCmd_of_not_ready h w, fun hready => ?_⟩
  have hcause {c : FaultCause} := writeCmd_of_cause hready (w := w) (c := c)
  dsimp only
  split_ifs with hopc hinit hbri hseg hnot hpins hpos
  · exact hcause (by rw [check, if_pos hopc]) (by decide)
  · exact hcause (by rw [check, if_neg hopc, if_pos hinit]) (by decide)
  · exact hcause (by rw [check, if_neg hopc, if_neg hinit, if_pos hbri]) (by decide)
  · exact hcause (by rw [check, if_neg hopc, if_neg hinit, if_neg hbri, if_pos hseg]) (by decide)
  · exact hcause (by rw [check, if_neg hopc, if_neg hinit, if_neg hbri, if_neg hseg, if_pos hnot]) (by decide)
  · exact hcause (by rw [check, if_neg hopc, if_neg hinit, if_neg hbri, if_neg hseg, if_neg hnot, if_pos hpins]) (by decide)
  · exact hcause (by rw [check, if_neg hopc, if_neg hinit, if_neg hbri, if_neg hseg, if_neg hnot, if_neg hpins, if_pos hpos])
      (by decide)
  · exact writeCmd_of_noFault hready
      (by rw [check, if_neg hopc, if_neg hinit, if_neg hbri, if_neg hseg, if_neg hnot, if_neg hpins, if_neg hpos])

/-- Settles O6: `accept` discards the word in FAULT, whatever it would perform. -/
theorem faultDiscardsCmdWrite : Obligations.FaultDiscardsCmdWrite := fun _ w hf =>
  ⟨(writeReg_zero w _).trans (writeCmd_of_not_ready (.inr hf) w), fun _ _ => accept_of_fault hf _ _,
    fun _ => accept_of_fault hf _ _, fun _ _ => accept_of_fault hf _ _⟩

/-! ### FAULT and reset -/

/-- Outside UNINIT and IDLE, so in FAULT as in BUSY, no host operation changes an engine register (R120, R207, R209). -/
theorem sameEngine_hostMove_of_not_ready {op : HostOp} {s t : State} (hn : ¬(s.fsm = .uninit ∨ s.fsm = .idle))
    (h : hostMove op s = .next t) : SameEngine s t := by
  obtain ⟨t', ht', hc⟩ := hostMove_cases op s
  obtain rfl : t' = t := by simpa [ht'] using h
  rcases hc with rfl | ⟨reg, rfl⟩ | ⟨dot, idx, rfl⟩ | rfl | ⟨hready, -⟩
  case inr.inr.inr.inl => rcases pollOnce_cases s with hp | hp <;> simp [hp, SameEngine]
  case inr.inr.inr.inr => exact absurd hready hn
  all_goals simp [SameEngine]

/-- Settles O37: from FAULT the engine does not move, and only a reset among the events and the host's operations touches it. -/
theorem faultLeftOnlyByReset : Obligations.FaultLeftOnlyByReset := by
  intro s t hf h
  rcases step_cases h with ⟨ev, he, rfl⟩ | ⟨he, op, -, hm⟩ | ⟨he, -, -, rfl⟩ | ⟨-, -, hb, -⟩ | ⟨-, -, hb, -⟩
  · by_cases hev : ev = .reset
    · subst hev
      exact .inl ⟨he, rfl⟩
    · exact .inr ⟨by simpa [he] using hev, (onEvent_keeps hev (popEvent s)).1⟩
  · exact .inr ⟨by simp [he], sameEngine_hostMove_of_not_ready (s := noteOp op (popHost s)) (by simp [hf]) hm⟩
  · exact .inr ⟨by simp [he], by simp [SameEngine]⟩
  · simp [hf] at hb
  · simp [hf] at hb

/-- From FAULT a step emits nothing, and it stays there unless it is a reset (R202, R207). -/
theorem step_of_fault {t u : State} (hf : t.fsm = .fault) (h : step t = .next u) :
    u.trace = t.trace ∧ (dueEvent t ≠ some .reset → u.fsm = .fault) := by
  refine ⟨?_, fun hno => ?_⟩
  · rcases traceGrowsInOrder t u h with ⟨htrace, -⟩ | ⟨hb, -⟩
    · exact htrace
    · simp [hf] at hb
  · rcases faultLeftOnlyByReset t u hf h with ⟨hreset, -⟩ | ⟨-, hfsm, -⟩
    · exact absurd hreset hno
    · exact hfsm.trans hf

theorem dropCmdWrite_of_due {s : State} {op : HostOp} (h : dueHost s = some op) (hcmd : isCmdWrite op = true) :
    dropCmdWrite s = noteOp op (popHost s) := by
  simp only [dropCmdWrite, h, hcmd, if_true]

theorem dropCmdWrite_of_none {s : State} (h : dueHost s = none) : dropCmdWrite s = s := by
  simp only [dropCmdWrite, h]

/-- Settles O40: outside BUSY the write has its turn and the reset takes it; in BUSY it has none and is not taken. -/
theorem resetPrecedence : Obligations.ResetPrecedence := by
  intro s w rest he hhost
  refine ⟨engineReset (dropCmdWrite (popEvent s)), step_event he, rfl, rfl, fun hb => ?_, fun hb => ?_⟩
  · have hdue : dueHost (popEvent s) = some (.write 0 w) := (dueHost_write_iff s w).2 ⟨hb, rest, hhost⟩
    rw [dropCmdWrite_of_due hdue rfl]
    simp [hhost]
  · have hheld : dueHost (popEvent s) = none := dueHost_of_held (s := popEvent s) hhost rfl hb
    rw [dropCmdWrite_of_none hheld]
    simp

/-! ### A failed mode switch -/

/-- A fail response ends the sequence in FAULT: cause and information are the running command's, and nothing else but the action in
flight changes (R121, R203). -/
theorem step_of_failed_switch {s : State} {a : Action} (hn : NothingDue s) (hb : s.fsm = .busy) (ho : s.outstanding = some a)
    (ha : (∃ p, a = .cfgOut p) ∨ ∃ p, a = .cfgIn p) (hfail : cfgAnswer s = .fail) :
    ∃ t, step s = .next t ∧ t.fsm = .fault ∧ t.faultCause = runCause s.op ∧ t.faultInfo = runInfo s ∧ t.seqIdx = s.seqIdx ∧
      t.trace = s.trace ∧ t.outstanding = none ∧ SamePins s t := by
  obtain ⟨he, hh, hhung⟩ := hn
  have hr : respond a (elapse s) = .cfg .fail := (respond_eq_fail_iff a (elapse s)).2 ⟨ha, hfail⟩
  obtain ⟨hcause, hinfo, hfsm, hidx, -⟩ := answer_of_fail hr
  exact ⟨_, step_answer he hh hb hhung ho, hfsm, hcause, hinfo, hidx, answer_trace a (elapse s), answer_outstanding a (elapse s),
    samePins_answer_of_fail hr⟩

/-- Settles O35: a CFG_OUT of INIT is a mode switch of the command with opcode 0x01. -/
theorem initPinFailure : Obligations.InitPinFailure := by
  intro s p hn hb hop ho _ hfail
  obtain ⟨t, ht, hfsm, hcause, hinfo, -, htrace, hout, hpins⟩ := step_of_failed_switch hn hb ho (.inl ⟨p, rfl⟩) hfail
  rw [hop] at hcause
  rw [runInfo, hop] at hinfo
  exact ⟨t, ht, hfsm, hcause, hinfo, htrace, hout, hpins, fun _ => step_of_fault hfsm⟩

/-- Settles O36: a window's CFG_IN and CFG_OUT are mode switches of the command with opcode 0x03. -/
theorem windowPinFailure : Obligations.WindowPinFailure := by
  intro s hn hb hop hat hfail
  obtain ⟨a, ho, ha⟩ : ∃ a, s.outstanding = some a ∧ ((∃ p, a = .cfgOut p) ∨ ∃ p, a = .cfgIn p) :=
    hat.elim (fun ⟨_, ho⟩ => ⟨_, ho, .inr ⟨_, rfl⟩⟩) (fun ⟨_, ho⟩ => ⟨_, ho, .inl ⟨_, rfl⟩⟩)
  obtain ⟨t, ht, hfsm, hcause, hinfo, hidx, htrace, hout, hpins⟩ := step_of_failed_switch hn hb ho ha hfail
  rw [hop] at hcause
  rw [runInfo, hop] at hinfo
  exact ⟨t, ht, hfsm, hcause, hinfo, hidx, htrace, hout, hpins, fun _ => step_of_fault hfsm⟩

end Sys2Proof.Machine
end

section
/-! PROOF. The family 70_reset_and_hazards: the action counts of every command and micro-operation (R242). -/

namespace Sys2Proof.Machine

/-! ### The counts of INIT and of the transactions -/

section
variable (c d : PinId) (pos : BitVec 3) (bm : Byte) (bri : BitVec 3)

theorem kindCounts_initSeq : kindCounts (initSeq c d) = [2, 0, 0, 2, 2] := rfl

theorem kindCounts_t1 : kindCounts (t1 c d) = [31, 1, 1, 1, 31] := by
  simp only [t1, kindCounts_append, kindCounts_startSeq, kindCounts_sendByte, kindCounts_stopSeq]
  rfl

/-- The one transaction of two bytes (R161). -/
theorem kindCounts_t2 : kindCounts (t2 c d pos bm) = [58, 2, 2, 2, 58] := by
  simp only [t2, kindCounts_append, kindCounts_startSeq, kindCounts_sendByte, kindCounts_stopSeq]
  rfl

theorem kindCounts_t3 : kindCounts (t3 c d bri) = [31, 1, 1, 1, 31] := by
  simp only [t3, kindCounts_append, kindCounts_startSeq, kindCounts_sendByte, kindCounts_stopSeq]
  rfl

end

/-! ### The rows of R242's table -/

section
variable {l : List Action} {n delays : Nat}

/-- A command's row: its length, then its counts in the table's order. -/
theorem commandRow_of_kindCounts {gets ins outs sets : Nat} (hlen : l.length = n)
    (h : kindCounts l = [delays, gets, ins, outs, sets]) :
    [l.length, l.countP isDelay, l.countP isSet, l.countP isCfgOut, l.countP isCfgIn, l.countP isGet] =
      [n, delays, sets, outs, ins, gets] := by
  simp only [kindCounts, List.map_cons, List.map_nil, List.cons.injEq, and_true] at h
  obtain ⟨hdelay, hget, hin, hout, hset⟩ := h
  rw [hlen, hdelay, hset, hout, hin, hget]

/-- A micro-operation's figures: its length and, in parentheses, its delays. -/
theorem microRow_of_kindCounts {others : List Nat} (hlen : l.length = n) (h : kindCounts l = delays :: others) :
    [l.length, l.countP isDelay] = [n, delays] := by
  have hdelay : l.countP isDelay = delays := (List.cons.inj h).1
  rw [hlen, hdelay]

end

/-- Settles O14: each row from the sequence's length and its counts by kind; a word written to CMD is a host operation, and
those emit nothing. -/
theorem actionCounts : Obligations.ActionCounts := by
  refine ⟨fun c d pos bm bri => ⟨?_, ?_, ?_, ?_, fun b => ?_, ?_, fun x => ?_, ?_, ?_, ?_⟩, fun w s t h => ?_⟩
  · exact commandRow_of_kindCounts (initSeq_length c d) (kindCounts_initSeq c d)
  · exact commandRow_of_kindCounts (writeSeq_length c d pos bm bri) (kindCounts_writeSeq c d pos bm bri)
  · exact microRow_of_kindCounts (startSeq_length d) (kindCounts_startSeq d)
  · exact microRow_of_kindCounts (stopSeq_length c d) (kindCounts_stopSeq c d)
  · exact microRow_of_kindCounts (sendBit_length c d b) (kindCounts_sendBit c d b)
  · exact microRow_of_kindCounts (ackSeq_length c d) (kindCounts_ackSeq c d)
  · exact microRow_of_kindCounts (sendByte_length c d x) (kindCounts_sendByte c d x)
  · exact microRow_of_kindCounts (t1_length c d) (kindCounts_t1 c d)
  · exact microRow_of_kindCounts (t3_length c d bri) (kindCounts_t3 c d bri)
  · exact microRow_of_kindCounts (t2_length c d pos bm) (kindCounts_t2 c d pos bm)
  · obtain ⟨htrace, hout, -, -⟩ := hostMove_keeps (op := .write 0 w) h
    exact ⟨htrace, hout⟩

end Sys2Proof.Machine
end
